-- ==== Sys2Proof/Word.lean ====
section
/-! DEFINITION. The units of data of the block: bytes, layer masks and frames (spec/00_scope.md R10, spec/10_state.md R21). -/

namespace Sys2Proof

/-- A byte: 8 bits, unsigned (R10). -/
abbrev Byte := BitVec 8

/-- A layer mask: an unsigned 32-bit value, bit 0 the least significant (R10, R84). -/
abbrev Word := BitVec 32

/-- A CubeFrame: exactly five layer masks, `l0` the first layer, `l4` the last. Every value is a legal frame (R21). -/
structure Frame where
  l0 : Word
  l1 : Word
  l2 : Word
  l3 : Word
  l4 : Word
deriving DecidableEq, Repr, Inhabited

/-- The five masks in layer order. -/
def Frame.words (f : Frame) : List Word := [f.l0, f.l1, f.l2, f.l3, f.l4]

end Sys2Proof
end

