-- ==== Sys2Proof/Machine/Parameters.lean ====
section
/-! DEFINITION. The parameters of the block that have a value (spec/00_scope.md R6), by the spec's own names. The OPEN
ones are in Sys2Proof/Config.lean. -/

namespace Sys2Proof.Machine

/-- `NLAYERS`: layers per frame (R6). -/
@[simp] abbrev nLayers : Nat := 5

/-- `FRAME_BYTES`: bytes of one frame on the wire (R6). -/
@[simp] abbrev frameBytes : Nat := 20

/-- `PAYLOAD_OFFSET`: index in the received bytes of the first frame byte (R6; 90_conflicts.md C1; log 1, UNVERIFIED,
unsafe). -/
@[simp] abbrev payloadOffset : Nat := 2

/-- `RX_LEN`: size of the receive buffer (R6; decision D2; log 2, UNVERIFIED, unsafe). -/
@[simp] abbrev rxLen : Nat := 34

/-- `TX_LEN`: bytes the device returns on a read transaction (R6, R83). -/
@[simp] abbrev txLen : Nat := 32

/-- `OPC_WRITECUBE`: the tag of WRITECUBE (R6, R86). -/
abbrev opcWritecube : Byte := 0x01#8

/-- `OPC_RDPGADDR`: the host's read-page-address opcode (R6, R86). -/
abbrev opcRdpgaddr : Byte := 0x00#8

/-- `PAGE_ADDR`: the only page address (R6). -/
abbrev pageAddr : Byte := 0x00#8

/-- `PAGE_SIZE`: payload bytes of one host transfer (R6). -/
@[simp] abbrev pageSize : Nat := 32

/-- `HOST_BUF`: size of the host's Transfer Buffer (R6). -/
@[simp] abbrev hostBuf : Nat := 34

/-- `BUS_HZ`: bus frequency; timing only, no rule uses it (R6, R244). -/
abbrev busHz : Nat := 100000

/-- `SETTLE_MS`: the host's settle delay; timing only, no rule uses it (R6, R238). -/
abbrev settleMs : Nat := 1

/-- `DEFAULT_PATTERN`: the reset value of `active` (R6, R33; decision D10; log 6, UNVERIFIED, unsafe). -/
def defaultPattern : Frame :=
  ⟨0xF0000001#32, 0xE8000002#32, 0xD8000004#32, 0xB8000008#32, 0x78000010#32⟩

/-- `STAGING_RESET`: OPEN in the spec, which names the default pattern as the natural value (R6, R33, R34, D8; log 4,
DESIGN CHOICE, unsafe). -/
def stagingReset : Frame := defaultPattern

/-- The display latch before the first EMIT: unspecified in the spec (R31, R33, D19; log 5, DESIGN CHOICE, unsafe). -/
def latchReset : Word := 0#32

end Sys2Proof.Machine
end

