-- ==== Sys2Proof/Machine/Operands.lean ====
section
/-! DEFINITION. Operand assembly: how received bytes become frame words, and back (spec/00_scope.md R11,
spec/20_memory.md R51, spec/30_encoding.md R85). -/

namespace Sys2Proof.Machine

/-- `le32` of four bytes in bus order: the first byte is bits 7:0, the fourth bits 31:24 (R11, R51). -/
def le32 (b0 b1 b2 b3 : Byte) : Word := b3 ++ b2 ++ b1 ++ b0

/-- Byte `i` of a byte string, `0x00` past its end (the decoder never reads past the end: R130). -/
def byteAt (bs : List Byte) (i : Nat) : Byte := bs.getD i 0#8

/-- The word whose four bytes stand at `i` .. `i + 3` (R51). -/
def wordAt (bs : List Byte) (i : Nat) : Word :=
  le32 (byteAt bs i) (byteAt bs (i + 1)) (byteAt bs (i + 2)) (byteAt bs (i + 3))

/-- `frame(p)` of R11: the five words `le32(p[4k..4k+3])` of a 20-byte string, layer 0 first (R51). -/
def frameOfBytes (p : List Byte) : Frame :=
  ⟨wordAt p 0, wordAt p 4, wordAt p 8, wordAt p 12, wordAt p 16⟩

/-- The four bytes of a word in bus order, least significant first (R51). -/
def bytesOfWord (w : Word) : List Byte :=
  [w.extractLsb' 0 8, w.extractLsb' 8 8, w.extractLsb' 16 8, w.extractLsb' 24 8]

/-- A frame laid out as 20 little-endian bytes, layer 0 first (R51, R117). -/
def bytesOfFrame (f : Frame) : List Byte :=
  bytesOfWord f.l0 ++ bytesOfWord f.l1 ++ bytesOfWord f.l2 ++ bytesOfWord f.l3 ++ bytesOfWord f.l4

/-- The `n` bytes of `bs` from index `i`: `MemRead(·, i, n)` of R11 on a byte string. -/
def sliceBytes (bs : List Byte) (i n : Nat) : List Byte := (bs.drop i).take n

/-- The 20 frame bytes of a received message, `rxbuf[2..21]` (R52, R85). -/
def payloadOf (msg : List Byte) : List Byte := sliceBytes msg payloadOffset frameBytes

end Sys2Proof.Machine
end

