-- ==== Sys2Proof/Syntax.lean ====
section
/-! DEFINITION. The encoded instructions of the block: one constructor per row of spec/opcode_table.json. An instruction
is a 34-byte message of format WFRAME (spec/30_encoding.md R81, R86); its fields are all the message's bytes but the
fixed bits of the tag, the ignored ones too, so that nothing of an encoding is lost (log 17). -/

namespace Sys2Proof

/-- A message that the Command Decoder reads. The seven UNKNOWN rows are named by the lowest tag each matches; `t` is the
free bits of the tag, `rest` the 33 bytes after it (R86, R131 to R133). -/
inductive Instr where
  /-- WRITECUBE, tag `0x01`: page byte, five masks, 12 padding bytes (R131) -/
  | writecube (page : Byte) (frame : Frame) (pad : List Byte)
  /-- RDPGADDR, tag `0x00` (R132) -/
  | rdpgaddr (rest : List Byte)
  /-- UNKNOWN, tags `1ttttttt` (R133) -/
  | unknown80 (t : BitVec 7) (rest : List Byte)
  /-- UNKNOWN, tags `01tttttt` (R133) -/
  | unknown40 (t : BitVec 6) (rest : List Byte)
  /-- UNKNOWN, tags `001ttttt` (R133) -/
  | unknown20 (t : BitVec 5) (rest : List Byte)
  /-- UNKNOWN, tags `0001tttt` (R133) -/
  | unknown10 (t : BitVec 4) (rest : List Byte)
  /-- UNKNOWN, tags `00001ttt` (R133) -/
  | unknown08 (t : BitVec 3) (rest : List Byte)
  /-- UNKNOWN, tags `000001tt` (R133) -/
  | unknown04 (t : BitVec 2) (rest : List Byte)
  /-- UNKNOWN, tags `0000001t` (R133) -/
  | unknown02 (t : BitVec 1) (rest : List Byte)
deriving DecidableEq, Repr

end Sys2Proof
end

