-- ==== Sys2Proof/WellFormed.lean ====
section
/-! DEFINITION. Which instruction terms stand for a message of format WFRAME: the ignored bytes must be as many as the
format has (spec/30_encoding.md R81). Every other field admits every value (R87 to R89). -/

namespace Sys2Proof

/-- The padding of WRITECUBE is bytes 22..33, twelve of them (R81). -/
def padFits (pad : List Byte) : Bool := pad.length == 12

/-- The bytes after the tag are bytes 1..33, thirty-three of them (R81). -/
def restFits (rest : List Byte) : Bool := rest.length == 33

/-- The instruction is a 34-byte message (R81). -/
def Instr.wellFormed : Instr → Bool
  | .writecube _ _ pad => padFits pad
  | .rdpgaddr rest => restFits rest
  | .unknown80 _ rest => restFits rest
  | .unknown40 _ rest => restFits rest
  | .unknown20 _ rest => restFits rest
  | .unknown10 _ rest => restFits rest
  | .unknown08 _ rest => restFits rest
  | .unknown04 _ rest => restFits rest
  | .unknown02 _ rest => restFits rest

end Sys2Proof
end

