-- ==== Sys2Proof/Decode.lean ====
section
/-! DEFINITION. The decoder of received messages and, after it, the encoder, both written from the opcode map and the
format WFRAME (spec/30_encoding.md R81, R85, R86; spec/opcode_table.json). -/

namespace Sys2Proof

open Sys2Proof.Machine

/-- Why a byte string is no instruction. -/
inductive DecodeError where
  /-- it is not exactly `RX_LEN` bytes: the Command Decoder is entered with 34 bytes only (R130) -/
  | wrongLength (n : Nat)
  /-- no row of the opcode map matches the tag; the nine rows cover every tag (R86), so no message is rejected so -/
  | noRow (tag : Byte)
deriving DecidableEq, Repr

/-! ### The opcode map (R86) -/

/-- A row of spec/opcode_table.json: the bits of the tag under `mask` are `pattern`. -/
structure OpcodeRow where
  mnemonic : String
  mask : Byte
  pattern : Byte
deriving DecidableEq, Repr

/-- The row matches the tag (R86). -/
def OpcodeRow.accepts (r : OpcodeRow) (tag : Byte) : Bool := tag &&& r.mask == r.pattern

def rowWritecube : OpcodeRow := ⟨"WRITECUBE", 0xFF#8, opcWritecube⟩
def rowRdpgaddr : OpcodeRow := ⟨"RDPGADDR", 0xFF#8, opcRdpgaddr⟩
def row80 : OpcodeRow := ⟨"UNKNOWN", 0x80#8, 0x80#8⟩
def row40 : OpcodeRow := ⟨"UNKNOWN", 0xC0#8, 0x40#8⟩
def row20 : OpcodeRow := ⟨"UNKNOWN", 0xE0#8, 0x20#8⟩
def row10 : OpcodeRow := ⟨"UNKNOWN", 0xF0#8, 0x10#8⟩
def row08 : OpcodeRow := ⟨"UNKNOWN", 0xF8#8, 0x08#8⟩
def row04 : OpcodeRow := ⟨"UNKNOWN", 0xFC#8, 0x04#8⟩
def row02 : OpcodeRow := ⟨"UNKNOWN", 0xFE#8, 0x02#8⟩

/-- The nine rows in the table's order; they partition the 256 tags (R86). -/
def opcodeRows : List OpcodeRow :=
  [rowWritecube, rowRdpgaddr, row80, row40, row20, row10, row08, row04, row02]

/-! ### The decoder -/

/-- The tag of a message: its first byte, all eight bits (R86, R130). -/
def tagOf (msg : List Byte) : Byte := byteAt msg 0

/-- The instruction of a 34-byte message, its row chosen by the tag alone (R86, R130). The fields are the message's
bytes at the places of format WFRAME (R81). -/
def decodeMessage (msg : List Byte) : Except DecodeError Instr :=
  let tag := tagOf msg
  let rest := msg.drop 1
  if rowWritecube.accepts tag then
    .ok (.writecube (byteAt msg 1) (frameOfBytes (payloadOf msg)) (msg.drop (payloadOffset + frameBytes)))
  else if rowRdpgaddr.accepts tag then .ok (.rdpgaddr rest)
  else if row80.accepts tag then .ok (.unknown80 (tag.extractLsb' 0 7) rest)
  else if row40.accepts tag then .ok (.unknown40 (tag.extractLsb' 0 6) rest)
  else if row20.accepts tag then .ok (.unknown20 (tag.extractLsb' 0 5) rest)
  else if row10.accepts tag then .ok (.unknown10 (tag.extractLsb' 0 4) rest)
  else if row08.accepts tag then .ok (.unknown08 (tag.extractLsb' 0 3) rest)
  else if row04.accepts tag then .ok (.unknown04 (tag.extractLsb' 0 2) rest)
  else if row02.accepts tag then .ok (.unknown02 (tag.extractLsb' 0 1) rest)
  else .error (.noRow tag)

/-- The decoder, total on any bytes: exactly `RX_LEN` bytes are an instruction, any other number is rejected by name
(R90, R130). -/
def decode (bs : List Byte) : Except DecodeError Instr :=
  if bs.length = rxLen then decodeMessage bs else .error (.wrongLength bs.length)

/-! ### The encoder -/

/-- The tag byte of an instruction, from the `encoding` column of spec/opcode_table.json (R86). -/
def Instr.tag : Instr → Byte
  | .writecube _ _ _ => opcWritecube
  | .rdpgaddr _ => opcRdpgaddr
  | .unknown80 t _ => 0b1#1 ++ t
  | .unknown40 t _ => 0b01#2 ++ t
  | .unknown20 t _ => 0b001#3 ++ t
  | .unknown10 t _ => 0b0001#4 ++ t
  | .unknown08 t _ => 0b00001#5 ++ t
  | .unknown04 t _ => 0b000001#6 ++ t
  | .unknown02 t _ => 0b0000001#7 ++ t

/-- The bytes of an instruction after its tag (R81). -/
def Instr.body : Instr → List Byte
  | .writecube page frame pad => page :: (bytesOfFrame frame ++ pad)
  | .rdpgaddr rest => rest
  | .unknown80 _ rest => rest
  | .unknown40 _ rest => rest
  | .unknown20 _ rest => rest
  | .unknown10 _ rest => rest
  | .unknown08 _ rest => rest
  | .unknown04 _ rest => rest
  | .unknown02 _ rest => rest

/-- The message of an instruction, in bus order: format WFRAME (R81). -/
def encode (i : Instr) : List Byte := i.tag :: i.body

/-! ### The words of the opcode table -/

/-- The 34 bytes whose low `nbits` bits are those of `w`, bit 0 the least significant bit of byte 0; every other bit
is 0. The table gives the tag byte only (R86). -/
def messageOfTableWord (nbits w : Nat) : List Byte :=
  (List.range rxLen).map fun i => BitVec.ofNat 8 ((w % 2 ^ nbits) >>> (8 * i))

/-- The instruction that the decoder reads from a word of the opcode table. -/
def decodeTableWord (nbits w : Nat) : Option Instr :=
  match decode (messageOfTableWord nbits w) with
  | .ok i => some i
  | .error _ => none

end Sys2Proof
end

