-- ==== Sys2Proof/Config.lean ====
section
/-! DEFINITION. What the spec leaves open: its OPEN parameters (spec/00_scope.md R6) and the free values. Every constant
here is opaque: no proof can see what it is, so a claim holds whatever it is. -/

namespace Sys2Proof

/-- What a receive answers when the master sends more than `RX_LEN` bytes: the two values that decision D5 admits for the
open parameter `OVERLONG_POLICY` (R6, R90). -/
inductive OverlongPolicy where
  /-- the receive fails -/
  | fail
  /-- the receive succeeds with the first `RX_LEN` bytes -/
  | truncate
deriving DecidableEq, Repr, Inhabited

/-- The order in which the 32 bits of a mask leave the serializer: the open parameter `SER_BIT_ORDER` (R6, R163). -/
inductive SerBitOrder where
  /-- bit 31 first -/
  | msbFirst
  /-- bit 0 first -/
  | lsbFirst
deriving DecidableEq, Repr, Inhabited

/-- What the bus holds for one poll of the I2C slave interface, before the interface turns it into an event
(R90, R91, R152). One value is one poll's worth of bus activity. -/
inductive Transaction where
  /-- no transaction for this poll -/
  | quiet
  /-- a write transaction of the bytes `sent`; `intact` is false where the interface's receive fails for a reason other
  than the number of bytes (R203; log 11) -/
  | write (sent : List Byte) (intact : Bool)
  /-- a read transaction; `completed` says whether the transmit was completed (R152) -/
  | read (completed : Bool)
deriving DecidableEq, Repr, Inhabited

/-- The host's error taxonomy (spec/43_host_environment.md R186). -/
inductive HostError where
  /-- payload larger than the fixed page -/
  | sizeExceeded
  /-- byte-count mismatch on an I2C operation -/
  | busTransferFailed
  /-- second concurrent open -/
  | sessionBusy
  /-- unrecognized command byte: embedded side only, no host call reports it (R201) -/
  | unknownOpcode
  /-- marshalling between kernel and user memory fails -/
  | userCopyFailed
deriving DecidableEq, Repr

/-- `OVERLONG_POLICY` (R6, R90; log 9). DESIGN CHOICE, safe: both outcomes are admitted. -/
opaque Config.overlongPolicy : OverlongPolicy

/-- `SER_BIT_ORDER` (R6, R163; log 18). DESIGN CHOICE, safe: both orders are admitted. -/
opaque Config.serBitOrder : SerBitOrder

/-- `SLAVE_ADDR` (R6; log 20). DESIGN CHOICE, safe: no rule of the block uses its value. -/
opaque Config.slaveAddr : Nat

/-- The free input of R152: what the bus holds for the poll numbered `n`, where `State.pending` does not say it
(log 7). DESIGN CHOICE, safe: any answer may come. -/
opaque Config.pollInput : Nat → Transaction

/-- The byte that a failed receive at the poll numbered `n` leaves at index `i` of `rxbuf` until CLEAR: unspecified
(R134, decision D30, U8; log 10). DESIGN CHOICE, safe: a free value. -/
opaque Config.rxResidue : Nat → Nat → Byte

/-- One less than the magnitude of the negative result that a host call returns for an error: the spec gives no numbers
(R186, N23; log 25). DESIGN CHOICE, safe: only the sign is known. -/
opaque Config.hostErrorCode : HostError → Nat

/-- The byte at index `i` of the Transfer Buffer that the session numbered `n` creates, before a call has filled it: the
spec gives no contents (R181; log 25). DESIGN CHOICE, safe: a free value. -/
opaque Config.freshTransferByte : Nat → Nat → Byte

end Sys2Proof
end

