-- ==== Sys2Proof/Machine/State.lean ====
section
/-! DEFINITION. The state of the block, the reasons a step could stop, and the state after reset
(spec/10_state.md R20 to R34). -/

namespace Sys2Proof.Machine

/-- The receive-buffer space (R28, R50): the bytes of `rxbuf` that are not `0x00`, by index, indices strictly rising.
An index that is not listed reads as `0x00`, the byte reset and CLEAR leave (R33, R156; log 14). -/
abbrev Memory := List Host.Cell

/-- The position inside an iteration: which of the five steps is next (R27). -/
inductive Phase where
  | emit | poll | clear | advance | swapchk
deriving DecidableEq, Repr, Inhabited

/-- The outcome of a read transaction's transmit, `Ok` or `Fail` (R152). -/
inductive TransmitResult where
  | ok | fail
deriving DecidableEq, Repr, Inhabited

/-- A diagnostic record: the name and what is recorded with it (R201). -/
inductive Diag where
  /-- code 1, raised by DECODE for every tag other than `0x01` (R202) -/
  | unknownOpcode (tag : Byte)
  /-- code 2, raised by RXFAIL (R203) -/
  | rxFail
  /-- code 3, raised for every read transaction (R204) -/
  | readServiced (r : TransmitResult)
deriving DecidableEq, Repr, Inhabited

/-- The state (R20, with the hidden state and the traces of R31 and R9). -/
structure State where
  /-- the frame being displayed (R22) -/
  active : Frame
  /-- the frame being filled (R23) -/
  staging : Frame
  /-- the pending-swap flag (R25) -/
  swapRequested : Bool
  /-- the layer counter, the block's program counter (R26) -/
  layer : Fin 5
  /-- the receive buffer (R28) -/
  rxbuf : Memory
  /-- the step that is next (R27) -/
  phase : Phase
  /-- the display latch: the last word given to the serializer (R31) -/
  latch : Word
  /-- the words given to the serializer, oldest first (R9) -/
  emitTrace : List Word
  /-- the answers to read transactions, oldest first (R9) -/
  transmitTrace : List (List Byte)
  /-- the diagnostic records, oldest first (R9, R200) -/
  diagTrace : List Diag
  /-- what the bus holds for the coming polls, first one first (R31 item 3, R152; log 7) -/
  pending : List Transaction
  /-- the model's own count of answered polls, the index of the free values (log 7) -/
  polls : Nat
deriving DecidableEq, Repr

/-- Why a step faults. There is no constructor: no operation of the block is fatal and no state is without a next step
(R161, R200; log 16). Unsafe if the device can stop in a way the spec does not describe. -/
inductive Fault where
deriving DecidableEq, Repr

/-- Why a step is refused. -/
inductive Refusal where
  /-- The host's mark for an instruction without a meaning. Nothing raises it: every instruction has its meaning. Safe:
  the machine stops where the device goes on. -/
  | notModelled (mnemonic : String)
deriving DecidableEq, Repr

/-- The machine right after reset, "controller start" (R33, R230). `staging` and `latch` are log 4 and 5; `pending` and
`polls` are log 7; the other values are R33's. -/
def State.reset : State where
  active := defaultPattern
  staging := stagingReset
  swapRequested := false
  layer := 0
  rxbuf := []
  phase := .emit
  latch := latchReset
  emitTrace := []
  transmitTrace := []
  diagTrace := []
  pending := []
  polls := 0

end Sys2Proof.Machine
end

