-- ==== Sys2Proof/Machine/Flags.lean ====
section
/-! DEFINITION. The block's one flag, `swap_requested` (spec/10_state.md R25). -/

namespace Sys2Proof.Machine

/-- Set by every `apply`, whatever its previous value (R25, R110). -/
def State.setSwapRequested (s : State) : State := { s with swapRequested := true }

/-- Cleared when, and only when, the exchange is performed (R25, R111). -/
def State.clearSwapRequested (s : State) : State := { s with swapRequested := false }

/-- The test of `maybe_swap`: `layer_index == 0 and swap_requested` (R111). -/
def State.swapDue (l : Fin 5) (s : State) : Bool := l == 0 && s.swapRequested

end Sys2Proof.Machine
end

