-- ==== Sys2Proof/Machine/FrameStore.lean ====
section
/-! DEFINITION. The Frame Store operations APPLY, MAYBE_SWAP and READ_LAYER (spec/40_frame_store_ops.md R110 to R112). -/

namespace Sys2Proof.Machine

/-- Word `k` of a frame: `active[k]`, `staging[k]` (R11, R21). -/
def frameWord (f : Frame) (k : Fin 5) : Word :=
  match k with
  | 0 => f.l0
  | 1 => f.l1
  | 2 => f.l2
  | 3 => f.l3
  | 4 => f.l4

/-- All five words of `staging`, as one step, and the flag set (R110). -/
def State.applyFrame (f : Frame) (s : State) : State := { s with staging := f }.setSwapRequested

/-- APPLY(p) for a 20-byte string `p` (R110). -/
def State.apply (p : List Byte) (s : State) : State := s.applyFrame (frameOfBytes p)

/-- The exchange of all ten words, as one step (R24, R111; log 13). -/
def State.exchange (s : State) : State := { s with active := s.staging, staging := s.active }

/-- MAYBE_SWAP(l) (R111). -/
def State.maybeSwap (l : Fin 5) (s : State) : State :=
  if s.swapDue l then s.exchange.clearSwapRequested else s

/-- READ_LAYER(l) (R112). -/
def State.readLayer (l : Fin 5) (s : State) : Word := frameWord s.active l

end Sys2Proof.Machine
end

