-- ==== Sys2Proof/Machine/Ops.lean ====
section
/-! DEFINITION. The named operations over the receive buffer, the diagnostics (the block's exceptions), the outputs and
the bus input. -/

namespace Sys2Proof.Machine

/-! ### The receive buffer (spec/10_state.md R28, spec/20_memory.md R50) -/

/-- Canonical form from index `a` on: indices strictly rising and inside the buffer, no byte that an unlisted index
reads as. -/
def Memory.wfFrom : Nat → Memory → Bool
  | _, [] => true
  | a, (k, b) :: m => decide (a ≤ k) && decide (k < rxLen) && (b != 0#8) && Memory.wfFrom (k + 1) m

/-- The buffer is in canonical form. -/
def Memory.wf (m : Memory) : Bool := Memory.wfFrom 0 m

/-- What an index of `rxbuf` that is not listed reads as (R33, R156). -/
def unlistedByte : Byte := 0x00#8

/-- Every byte `0x00`: the buffer after reset and after CLEAR (R33, R156). -/
def Memory.zeroed : Memory := []

/-- `rxbuf[i]`. The index is a number below `RX_LEN`: the buffer has no other byte (R11, R28). -/
def Memory.read : Memory → Fin rxLen → Byte
  | [], _ => unlistedByte
  | (k, b) :: m, i => if k = i.val then b else Memory.read m i

/-- The bytes of the buffer in index order. -/
def Memory.bytes (m : Memory) : List Byte := List.ofFn fun i => m.read i

/-- `MemRead(rxbuf, i, n)` (R11). -/
def Memory.slice (m : Memory) (i n : Nat) : List Byte := sliceBytes m.bytes i n

/-- The cells of the bytes `bs` from index `a` on. -/
def Memory.cellsFrom : Nat → List Byte → Memory
  | _, [] => []
  | a, b :: bs => if b = unlistedByte then Memory.cellsFrom (a + 1) bs else (a, b) :: Memory.cellsFrom (a + 1) bs

/-- The buffer after `MemWrite(rxbuf, 0, RX_LEN, bs)`: every byte is written, so nothing of the earlier contents stays
(R53, R154). -/
def Memory.ofBytes (bs : List Byte) : Memory := Memory.cellsFrom 0 (bs.take rxLen)

/-- `MemWrite(rxbuf, 0, RX_LEN, bs)` (R11, R154). -/
def State.fillRxbuf (bs : List Byte) (s : State) : State := { s with rxbuf := Memory.ofBytes bs }

/-- The bytes that a failed receive leaves in the buffer until CLEAR: free values (R134, D30; log 10). -/
def rxResidue (n : Nat) : List Byte := (List.range rxLen).map (Config.rxResidue n)

/-! ### Diagnostics: the block's exceptions (spec/60_exceptions.md R200 to R208) -/

/-- The code of a diagnostic (R201). -/
def Diag.code : Diag → Nat
  | .unknownOpcode _ => 1
  | .rxFail => 2
  | .readServiced _ => 3

/-- `raise Diag`: append one record to the diagnostic trace. Nothing is saved, no control flow changes and so there is
nothing to return from (R200, R207, R208). -/
def State.raise (d : Diag) (s : State) : State := { s with diagTrace := s.diagTrace ++ [d] }

/-! ### Outputs (spec/00_scope.md R11) -/

/-- `SerialEmit(w)`: the display latch takes the word, and the emit trace records it (R11, R31, R151). -/
def State.serialEmit (w : Word) (s : State) : State := { s with latch := w, emitTrace := s.emitTrace ++ [w] }

/-- `Transmit(t)`: the answer to a read transaction, recorded in the transmit trace (R11, R155). -/
def State.transmit (t : List Byte) (s : State) : State := { s with transmitTrace := s.transmitTrace ++ [t] }

/-! ### The bus input (spec/42_refresh_cycle.md R152) -/

/-- What the bus holds for the `k`-th coming poll, the next one being `k = 0`: the list of `pending` says it, and past
its end it is a free value (log 7). -/
def State.input (s : State) (k : Nat) : Transaction := s.pending.getD k (Config.pollInput (s.polls + k))

/-- The inputs of the next `n` polls. -/
def State.inputs (s : State) (n : Nat) : List Transaction := (List.range n).map s.input

/-- One poll has been answered: the next one gets the next input (R65, D16, D17; log 21). -/
def State.consumeInput (s : State) : State := { s with pending := s.pending.tail, polls := s.polls + 1 }

/-! ### Sequencing -/

/-- The step that is next becomes `p` (R27). -/
def State.goto (p : Phase) (s : State) : State := { s with phase := p }

/-- Apply `f` to the next state of an outcome; a fault or a refusal stays. -/
def andThen (o : Host.Outcome State Fault Refusal) (f : State → State) : Host.Outcome State Fault Refusal :=
  match o with
  | .next s => .next (f s)
  | .fault r => .fault r
  | .refused r => .refused r

end Sys2Proof.Machine
end

