-- ==== Sys2Proof/Machine/Commands.lean ====
section
/-! DEFINITION. The meanings of the commands (spec/41_command_decoder.md R131 to R133). Each answers a next state: no
command is fatal (R161, R200). -/

namespace Sys2Proof.Machine

/-- WRITECUBE: the assembled frame goes to `staging` and the flag is set; no diagnostic (R131). -/
def execWritecube (frame : Frame) (s : State) : Host.Outcome State Fault Refusal := .next (s.applyFrame frame)

/-- What every command other than WRITECUBE does: the diagnostic with its tag, nothing else (R87, R130). -/
def State.unrecognised (tag : Byte) (s : State) : State := s.raise (.unknownOpcode tag)

/-- RDPGADDR (R132). -/
def execRdpgaddr (s : State) : Host.Outcome State Fault Refusal := .next (s.unrecognised opcRdpgaddr)

/-- UNKNOWN, tags `1ttttttt` (R133). -/
def execUnknown80 (t : BitVec 7) (s : State) : Host.Outcome State Fault Refusal := .next (s.unrecognised (0b1#1 ++ t))

/-- UNKNOWN, tags `01tttttt` (R133). -/
def execUnknown40 (t : BitVec 6) (s : State) : Host.Outcome State Fault Refusal := .next (s.unrecognised (0b01#2 ++ t))

/-- UNKNOWN, tags `001ttttt` (R133). -/
def execUnknown20 (t : BitVec 5) (s : State) : Host.Outcome State Fault Refusal := .next (s.unrecognised (0b001#3 ++ t))

/-- UNKNOWN, tags `0001tttt` (R133). -/
def execUnknown10 (t : BitVec 4) (s : State) : Host.Outcome State Fault Refusal := .next (s.unrecognised (0b0001#4 ++ t))

/-- UNKNOWN, tags `00001ttt` (R133). -/
def execUnknown08 (t : BitVec 3) (s : State) : Host.Outcome State Fault Refusal := .next (s.unrecognised (0b00001#5 ++ t))

/-- UNKNOWN, tags `000001tt` (R133). -/
def execUnknown04 (t : BitVec 2) (s : State) : Host.Outcome State Fault Refusal := .next (s.unrecognised (0b000001#6 ++ t))

/-- UNKNOWN, tags `0000001t` (R133). -/
def execUnknown02 (t : BitVec 1) (s : State) : Host.Outcome State Fault Refusal := .next (s.unrecognised (0b0000001#7 ++ t))

end Sys2Proof.Machine
end

