-- ==== Sys2Proof/Machine/Dispatch.lean ====
section
/-! DEFINITION. The dispatch of the Command Decoder over the decoded instruction (spec/41_command_decoder.md R130). -/

namespace Sys2Proof.Machine

def exec (i : Instr) (s : State) : Host.Outcome State Fault Refusal :=
  match i with
  | .writecube _ frame _ => Sys2Proof.Machine.execWritecube frame s
  | .rdpgaddr _ => Sys2Proof.Machine.execRdpgaddr s
  | .unknown80 t _ => Sys2Proof.Machine.execUnknown80 t s
  | .unknown40 t _ => Sys2Proof.Machine.execUnknown40 t s
  | .unknown20 t _ => Sys2Proof.Machine.execUnknown20 t s
  | .unknown10 t _ => Sys2Proof.Machine.execUnknown10 t s
  | .unknown08 t _ => Sys2Proof.Machine.execUnknown08 t s
  | .unknown04 t _ => Sys2Proof.Machine.execUnknown04 t s
  | .unknown02 t _ => Sys2Proof.Machine.execUnknown02 t s

end Sys2Proof.Machine
end

