-- ==== Sys2Proof/Machine/Events.lean ====
section
/-! DEFINITION. The I2C slave interface at event level, and the service of each event (spec/30_encoding.md R90, R91,
spec/42_refresh_cycle.md R152 to R155, spec/41_command_decoder.md R130, R134). -/

namespace Sys2Proof.Machine

/-- The result of the receive of a `WriteAddressed` event (R152). -/
inductive ReceiveResult where
  /-- the receive succeeded with these `RX_LEN` bytes -/
  | ok (bytes : List Byte)
  /-- the receive did not deliver exactly `RX_LEN` bytes -/
  | fail
deriving DecidableEq, Repr

/-- The answer of one poll (R91, R152). -/
inductive Event where
  | idle
  | writeAddressed (r : ReceiveResult)
  | readAddressed (r : TransmitResult)
deriving DecidableEq, Repr

/-- The outcome of the receive of a write transaction: by the number of bytes sent (R90, D5), and failed where the
interface reports any other failure (R203; log 9, 11). -/
def receiveWrite (sent : List Byte) (intact : Bool) : ReceiveResult :=
  if !intact then .fail
  else if sent.length = rxLen then .ok sent
  else if sent.length < rxLen then .fail
  else
    match Config.overlongPolicy with
    | .fail => .fail
    | .truncate => .ok (sent.take rxLen)

/-- The event that the interface reports for a poll's transaction (R91, R152). -/
def eventOf : Transaction → Event
  | .quiet => .idle
  | .write sent intact => .writeAddressed (receiveWrite sent intact)
  | .read completed => .readAddressed (if completed then .ok else .fail)

/-- The answer of the next poll (R152). -/
def State.nextEvent (s : State) : Event := eventOf (s.input 0)

/-- EV_IDLE: no-op (R153). -/
def evIdle (s : State) : State := s

/-- RXFAIL: the diagnostic, no other state (R134). -/
def rxFail (s : State) : State := s.raise .rxFail

/-- DECODE: the message in `rxbuf` is decoded and carried out (R130). Where the buffer did not hold `RX_LEN` bytes the
decoder would not be entered (R134); it always does (log 23). -/
def commandDecoder (s : State) : Host.Outcome State Fault Refusal :=
  match decode s.rxbuf.bytes with
  | .ok i => exec i s
  | .error _ => .next (rxFail s)

/-- EV_WRITE_ADDRESSED (R154). A failed receive leaves free bytes in `rxbuf` (R134, D30; log 10). -/
def evWriteAddressed (r : ReceiveResult) (s : State) : Host.Outcome State Fault Refusal :=
  match r with
  | .ok bytes => commandDecoder (s.fillRxbuf bytes)
  | .fail => .next (rxFail (s.fillRxbuf (rxResidue s.polls)))

/-- EV_READ_ADDRESSED: `TX_LEN` bytes of the receive buffer are sent, and the outcome is logged (R155; log 3). -/
def evReadAddressed (r : TransmitResult) (s : State) : State :=
  (s.transmit (s.rxbuf.slice 0 txLen)).raise (.readServiced r)

/-- The service of an event (R152). -/
def service (e : Event) (s : State) : Host.Outcome State Fault Refusal :=
  match e with
  | .idle => .next (evIdle s)
  | .writeAddressed r => evWriteAddressed r s
  | .readAddressed r => .next (evReadAddressed r s)

end Sys2Proof.Machine
end

