-- ==== Sys2Proof/Machine/Refresh.lean ====
section
/-! DEFINITION. The five steps of an iteration of the Refresh Cycle (spec/42_refresh_cycle.md R150 to R158). Each moves
`phase` on to the step after it (spec/10_state.md R27). -/

namespace Sys2Proof.Machine

/-- `(layer + 1) mod 5` (R67, R157). -/
def nextLayer (l : Fin 5) : Fin 5 := ⟨(l.val + 1) % nLayers, Nat.mod_lt _ (by decide)⟩

/-- EMIT, step 1 (R151). -/
def emitStep (s : State) : State := (s.serialEmit (s.readLayer s.layer)).goto .poll

/-- POLL, step 2, with the service of the one event it returns (R152). -/
def pollStep (s : State) : Host.Outcome State Fault Refusal :=
  andThen (service s.nextEvent s.consumeInput) (State.goto .clear)

/-- CLEAR, step 3: every byte of `rxbuf` becomes `0x00`, whatever the event was (R156). -/
def clearStep (s : State) : State := { s with rxbuf := Memory.zeroed }.goto .advance

/-- ADVANCE, step 4 (R157). -/
def advanceStep (s : State) : State := { s with layer := nextLayer s.layer }.goto .swapchk

/-- SWAPCHK, step 5, with the layer that ADVANCE produced (R158). -/
def swapchkStep (s : State) : State := (s.maybeSwap s.layer).goto .emit

end Sys2Proof.Machine
end

