-- ==== Sys2Proof/Machine/Step.lean ====
section
/-! DEFINITION. One step of the machine: the step of the iteration that `phase` names (spec/10_state.md R27,
spec/42_refresh_cycle.md R150; log 12). -/

namespace Sys2Proof.Machine

/-- One of the five steps (R150). -/
def step (s : State) : Host.Outcome State Fault Refusal :=
  match s.phase with
  | .emit => .next (emitStep s)
  | .poll => pollStep s
  | .clear => .next (clearStep s)
  | .advance => .next (advanceStep s)
  | .swapchk => .next (swapchkStep s)

/-- The state in which the next step is the POLL that receives the message of a word of the opcode table: the bus master
has sent those 34 bytes (log 8). -/
def State.withFetchWord (s : State) (nbits w : Nat) : State :=
  { s with phase := .poll, pending := .write (messageOfTableWord nbits w) true :: s.pending }

end Sys2Proof.Machine
end

