-- ==== Sys2Proof/Machine/Banked.lean ====
section
/-! DEFINITION. The realisation of the Frame Store with two physical buffers and a bank select (spec/10_state.md R24,
R31 item 1): a second design, to be compared with the exchange of contents that `State` uses (log 13). -/

namespace Sys2Proof.Machine

/-- `buf[0]`, `buf[1]`, the select bit `sel` and the pending-swap flag (R24). -/
structure Banks where
  buf0 : Frame
  buf1 : Frame
  sel : Bool
  flag : Bool
deriving DecidableEq, Repr

/-- `active = buf[sel]` (R24). -/
def Banks.active (b : Banks) : Frame := if b.sel then b.buf1 else b.buf0

/-- `staging = buf[1 - sel]` (R24). -/
def Banks.staging (b : Banks) : Frame := if b.sel then b.buf0 else b.buf1

/-- APPLY into the buffer that is not displayed (R110). -/
def Banks.apply (f : Frame) (b : Banks) : Banks :=
  if b.sel then { b with buf0 := f, flag := true } else { b with buf1 := f, flag := true }

/-- MAYBE_SWAP as `sel <- 1 - sel` (R24, R111). -/
def Banks.maybeSwap (l : Fin 5) (b : Banks) : Banks :=
  if l == 0 && b.flag then { b with sel := !b.sel, flag := false } else b

/-- READ_LAYER from the displayed buffer (R112). -/
def Banks.readLayer (l : Fin 5) (b : Banks) : Word := frameWord b.active l

/-- The two designs hold the same frames and flag. -/
def Banks.agrees (b : Banks) (s : State) : Prop :=
  b.active = s.active ∧ b.staging = s.staging ∧ b.flag = s.swapRequested

/-- One operation on the Frame Store (R110, R111). -/
inductive StoreOp where
  | apply (f : Frame)
  | maybeSwap (l : Fin 5)
deriving DecidableEq, Repr

/-- The operations in order, on the banked design. -/
def Banks.perform (b : Banks) : List StoreOp → Banks
  | [] => b
  | .apply f :: ops => Banks.perform (b.apply f) ops
  | .maybeSwap l :: ops => Banks.perform (b.maybeSwap l) ops

/-- The operations in order, on the state. -/
def State.perform (s : State) : List StoreOp → State
  | [] => s
  | .apply f :: ops => State.perform (s.applyFrame f) ops
  | .maybeSwap l :: ops => State.perform (s.maybeSwap l) ops

end Sys2Proof.Machine
end

