-- ==== Sys2Proof/Machine/HostSide.lean ====
section
/-! DEFINITION. The host driver as the environment of the block (spec/43_host_environment.md R180 to R188): its Transfer
Buffer, transport calls, Session Guard and device file, its errors, and what it puts on the bus. None of it is state of
the block (spec/10_state.md R32; log 20, 25, 26). -/

namespace Sys2Proof.Machine.HostSide

/-! ### The Transfer Buffer (R181) -/

/-- The Transfer Buffer: exactly `HOST_BUF` = 34 bytes, opcode, page address and 32 bytes of payload (R181). -/
structure TransferBuffer where
  bytes : List Byte
  size : bytes.length = hostBuf
deriving DecidableEq, Repr

/-- The 34 bytes of a filled buffer: opcode, page address, data, zeros up to offset 33. All of it is written, so nothing of
an earlier call stays (R181, R182). -/
def writeBuffer (data : List Byte) : List Byte :=
  opcWritecube :: pageAddr :: (data.take pageSize ++ List.replicate (pageSize - data.length) 0x00#8)

theorem writeBuffer_length (data : List Byte) : (writeBuffer data).length = hostBuf := by
  simp only [writeBuffer, List.length_cons, List.length_append, List.length_take, List.length_replicate, pageSize, hostBuf]
  omega

/-- The buffer that `writePage` leaves (R182). -/
def TransferBuffer.filled (data : List Byte) : TransferBuffer := ⟨writeBuffer data, writeBuffer_length data⟩

/-- The two bytes of format RADDR (R82, R183). -/
def readAddressBytes : List Byte := [opcRdpgaddr, pageAddr]

/-- The buffer that `readPage` leaves: opcode and page address set, the payload as it was (R183). -/
def TransferBuffer.addressed (b : TransferBuffer) : TransferBuffer :=
  ⟨readAddressBytes ++ b.bytes.drop 2, by simp [readAddressBytes, b.size]⟩

/-- The buffer that the session numbered `n` creates: its contents are free values (R181; log 25). -/
def TransferBuffer.fresh (n : Nat) : TransferBuffer :=
  ⟨(List.range hostBuf).map (Config.freshTransferByte n), by simp⟩

/-! ### The transport calls (R182, R183) -/

/-- A write transaction that the host issues: the slave it addresses and the bytes. -/
structure BusWrite where
  target : Nat
  bytes : List Byte
deriving DecidableEq, Repr

/-- What one `writePage` leaves: the Transfer Buffer, the transaction issued (if any) and the result. -/
structure WriteCall where
  buffer : TransferBuffer
  sent : Option BusWrite
  result : Except HostError Unit

/-- `writePage(data)`; `accepted` is the number of bytes the transport reports as accepted (R182). -/
def writePage (buffer : TransferBuffer) (data : List Byte) (accepted : Nat) : WriteCall :=
  if data.length > pageSize then ⟨buffer, none, .error .sizeExceeded⟩
  else
    ⟨TransferBuffer.filled data, some ⟨Config.slaveAddr, writeBuffer data⟩,
      if accepted = hostBuf then .ok () else .error .busTransferFailed⟩

/-- What one `readPage` leaves: the Transfer Buffer, the address write, whether the read was issued, and the result. -/
structure ReadCall where
  buffer : TransferBuffer
  sent : BusWrite
  readIssued : Bool
  result : Except HostError (List Byte)

/-- `readPage(maxBytes)`; `accepted` is the number of address bytes the transport reports as accepted, `received` what
the read of `TX_LEN` bytes returned (R183). `maxBytes` is at most 32 in every call of the device file (R184; log 20). The
settle delay is timing only (R238). -/
def readPage (buffer : TransferBuffer) (maxBytes accepted : Nat) (received : List Byte) : ReadCall :=
  { buffer := buffer.addressed
    sent := ⟨Config.slaveAddr, readAddressBytes⟩
    readIssued := accepted = 2
    result :=
      if accepted ≠ 2 then .error .busTransferFailed
      else if received.length ≠ txLen then .error .busTransferFailed
      else .ok (received.take maxBytes) }

/-! ### The Session Guard (R185) -/

/-- The Session Guard (R185). -/
inductive SessionGuard where
  | free
  | held
deriving DecidableEq, Repr

/-- `open()`: at once the session, or `SessionBusy` (R185). -/
def SessionGuard.acquire : SessionGuard → Except HostError SessionGuard
  | .free => .ok .held
  | .held => .error .sessionBusy

/-- `close()`: no move of the host where no session is held, since the source leaves that undefined and to be prevented by
the caller (R185; U1, log 20). -/
def SessionGuard.release : SessionGuard → Option SessionGuard
  | .free => none
  | .held => some .free

/-- The session: the one Transfer Buffer exists exactly while the guard is held (R181, R185). -/
inductive Session where
  | free
  | held (buffer : TransferBuffer)
deriving DecidableEq, Repr

/-- The guard of a session (R185). -/
def Session.guard : Session → SessionGuard
  | .free => .free
  | .held _ => .held

/-- The host driver: its session, and the model's own count of the sessions opened, which indexes the free contents of a
fresh buffer (log 25). -/
structure Driver where
  session : Session
  opened : Nat
deriving DecidableEq, Repr

/-- The driver before any call: no session held (R185). -/
def Driver.start : Driver := ⟨.free, 0⟩

/-! ### The device file (R184) -/

/-- One bus operation of a call: a write transaction, or a read of `count` bytes. -/
inductive BusAction where
  | write (w : BusWrite)
  | read (target count : Nat)
deriving DecidableEq, Repr

/-- What a call on the device file leaves: the driver, the bus operations in order, the bytes put into the caller's buffer,
and the result, a number of bytes or an error (R184, R186). -/
structure Reply where
  driver : Driver
  bus : List BusAction
  output : List Byte
  result : Except HostError Nat

/-- A call that puts nothing on the bus and nothing into the caller's buffer. -/
def Reply.silent (d : Driver) (result : Except HostError Nat) : Reply := ⟨d, [], [], result⟩

/-- A call on the device file, with what the transport and the user-memory marshalling report during it: `copied` is the
number of bytes that the marshalling moved, `accepted` and `received` are as in `writePage` and `readPage`. -/
inductive FileCall where
  | openFile
  | writeFile (user : List Byte) (copied accepted : Nat)
  | readFile (n accepted : Nat) (received : List Byte) (copied : Nat)
  | closeFile
deriving DecidableEq, Repr

/-- `open`: acquire the session and create its Transfer Buffer; fails if already held (R181, R184, R185). -/
def Driver.openFile (d : Driver) : Reply :=
  match d.session.guard.acquire with
  | .ok _ => .silent ⟨.held (TransferBuffer.fresh d.opened), d.opened + 1⟩ (.ok 0)
  | .error e => .silent d (.error e)

/-- `close`: release the session; its Transfer Buffer ends with it (R181, R184, R185). -/
def Driver.closeFile (d : Driver) : Option Reply :=
  d.session.guard.release.map fun _ => .silent { d with session := .free } (.ok 0)

/-- `write(buffer, n)` within a session, `n` the length of `user`: one `writePage` in the session's buffer, and the bytes
transferred, or an error (R184, R186). DESIGN CHOICE (log 25): the size is checked before the user memory is touched, and
where the marshalling moves fewer than `n` bytes nothing is sent and the Transfer Buffer stays as it was. -/
def Driver.writeIn (d : Driver) (b : TransferBuffer) (user : List Byte) (copied accepted : Nat) : Reply :=
  if user.length ≤ pageSize ∧ copied < user.length then .silent d (.error .userCopyFailed)
  else
    let c := writePage b user accepted
    { driver := { d with session := .held c.buffer }
      bus := c.sent.toList.map .write
      output := []
      result := c.result.map fun _ => user.length }

/-- What `readPage`'s result gives the caller: `n` bytes copied, or an error. A transport error leaves the caller's buffer
untouched (R183, V6); a marshalling error leaves the bytes it moved (R186; log 25). -/
def deliver (n copied : Nat) : Except HostError (List Byte) → List Byte × Except HostError Nat
  | .error e => ([], .error e)
  | .ok bytes => if copied < n then (bytes.take copied, .error .userCopyFailed) else (bytes, .ok n)

/-- `read(buffer, n)` within a session: `n` at most 32, one `readPage` in the session's buffer, and the bytes copied to the
caller, or an error (R184, R186). That a larger `n` is reported as `SizeExceeded`, with nothing on the bus, is DEDUCED
(log 25). -/
def Driver.readIn (d : Driver) (b : TransferBuffer) (n accepted : Nat) (received : List Byte) (copied : Nat) : Reply :=
  if n > pageSize then .silent d (.error .sizeExceeded)
  else
    let c := readPage b n accepted received
    { driver := { d with session := .held c.buffer }
      bus := .write c.sent :: if c.readIssued then [.read Config.slaveAddr txLen] else []
      output := (deliver n copied c.result).1
      result := (deliver n copied c.result).2 }

/-- A call on the device file (R184). Without a held session `write`, `read` and `close` are no moves of the host: a
session must be opened before (R185, R232; U1, log 20). DESIGN CHOICE (log 26), unsafe for claims about the host: a call runs
whole, so `write` and `read` never race on the shared buffer as R187 and R242 leave open (U11), and no mixed message is a
move of this host. -/
def Driver.call (d : Driver) : FileCall → Option Reply
  | .openFile => some d.openFile
  | .closeFile => d.closeFile
  | .writeFile user copied accepted =>
    match d.session with
    | .free => none
    | .held b => some (d.writeIn b user copied accepted)
  | .readFile n accepted received copied =>
    match d.session with
    | .free => none
    | .held b => some (d.readIn b n accepted received copied)

/-- The size that the call returns: the number of bytes, or a negative result on an error (R186; the magnitude is open,
log 25). -/
def returnValue : Except HostError Nat → Int
  | .ok n => n
  | .error e => -((Config.hostErrorCode e : Int) + 1)

/-! ### What the block sees (R94, R188) -/

/-- What the block sees of `writePage(data)` (R94, R188); `intact` is the block's own receive (N10, U15). -/
def writePageTransactions (data : List Byte) (intact : Bool) : List Transaction :=
  if data.length > pageSize then [] else [.write (writeBuffer data) intact]

/-- What the block sees of `readPage` that goes on to its read, with `idles` quiet polls between (R94). -/
def readPageTransactions (idles : Nat) (completed : Bool) : List Transaction :=
  .write readAddressBytes true :: (List.replicate idles .quiet ++ [.read completed])

/-- What the block sees of one bus operation that addresses it; `good` is the block's own outcome of it (R50, N10, U15). -/
def BusAction.transactions (good : Bool) : BusAction → List Transaction
  | .write w => if w.target = Config.slaveAddr then [.write w.bytes good] else []
  | .read target _ => if target = Config.slaveAddr then [.read good] else []

end Sys2Proof.Machine.HostSide
end

