-- ==== Sys2Proof/Machine/Iterate.lean ====
section
/-! DEFINITION. ITERATE: the five steps as one transition, written from its own rule (spec/42_refresh_cycle.md R159) and
not from the five steps, so that the two can be compared. -/

namespace Sys2Proof.Machine

/-- Step 2 of R159: what an event does to the Frame Store, the transmit trace and the diagnostic trace. -/
def iterateEvent (ev : Event) (s : State) : State :=
  match ev with
  | .idle => s
  | .writeAddressed .fail => { s with diagTrace := s.diagTrace ++ [.rxFail] }
  | .writeAddressed (.ok b) =>
    if byteAt b 0 = 0x01#8 then { s with staging := frameOfBytes (sliceBytes b 2 20), swapRequested := true }
    else { s with diagTrace := s.diagTrace ++ [.unknownOpcode (byteAt b 0)] }
  | .readAddressed r =>
    { s with transmitTrace := s.transmitTrace ++ [List.replicate 32 0x00#8], diagTrace := s.diagTrace ++ [.readServiced r] }

/-- Steps 4 and 5 of R159: the layer advances, and the frames are exchanged where it has become 0 with the flag set. -/
def iterateAdvance (s : State) : State :=
  let l := nextLayer s.layer
  if l = 0 ∧ s.swapRequested = true then
    { s with layer := l, active := s.staging, staging := s.active, swapRequested := false }
  else { s with layer := l }

/-- ITERATE(s, ev) (R159). -/
def iterate (ev : Event) (s : State) : State :=
  let w := frameWord s.active s.layer
  let emitted := { s with latch := w, emitTrace := s.emitTrace ++ [w] }
  iterateAdvance { iterateEvent ev emitted with rxbuf := Memory.zeroed }

end Sys2Proof.Machine
end

