-- ==== Sys2Proof/Machine/Script.lean ====
section
/-! DEFINITION. The spec's script notation: one line is what the bus holds for one poll (spec/30_encoding.md R93). -/

namespace Sys2Proof.Machine

/-- A line of the notation (R93). -/
inductive ScriptLine where
  | idle
  | writecube (m : Frame)
  | writeraw (bytes : List Byte)
  | writeshort (bytes : List Byte)
  | rdpgaddr
  | read
  | readfail
deriving DecidableEq, Repr

/-- The message of `WRITECUBE m0, …, m4`: page byte and padding zero (R93). -/
def writecubeMessage (m : Frame) : List Byte := encode (.writecube 0x00#8 m (List.replicate 12 0x00#8))

/-- The transaction behind a line (R93). `WRITESHORT n` is given with the `n` bytes that were sent. -/
def ScriptLine.transaction : ScriptLine → Transaction
  | .idle => .quiet
  | .writecube m => .write (writecubeMessage m) true
  | .writeraw bytes => .write bytes true
  | .writeshort bytes => .write bytes true
  | .rdpgaddr => .write [0x00#8, 0x00#8] true
  | .read => .read true
  | .readfail => .read false

end Sys2Proof.Machine
end

