-- ==== Sys2Proof/Machine/Serializer.lean ====
section
/-! DEFINITION. The serializer below word level (spec/42_refresh_cycle.md R163): a 32-stage shift-register chain and its
latched outputs. PRESUMED (G2 of spec/93_implementation_defined.md, general knowledge), safe: no rule of the block reads
it, and the order of the bits is left open (log 18). -/

namespace Sys2Proof.Machine

/-- The chain's 32 stages, stage 0 the first the serial line reaches, and the outputs its latch holds. -/
structure SerialChain where
  stages : Word
  outputs : Word
deriving DecidableEq, Repr

/-- The 32 bits of a mask in the order they leave the serializer (R163). -/
def serialBits (order : SerBitOrder) (w : Word) : List Bool :=
  match order with
  | .msbFirst => (List.range 32).map fun i => w.getLsbD (31 - i)
  | .lsbFirst => (List.range 32).map fun i => w.getLsbD i

/-- One shift clock: stage 0 takes the line's bit, every other stage its predecessor's (R163). -/
def SerialChain.clock (c : SerialChain) (b : Bool) : SerialChain := { c with stages := c.stages.shiftConcat b }

/-- One shift clock per bit, in order. -/
def SerialChain.shiftIn (c : SerialChain) (bits : List Bool) : SerialChain := bits.foldl SerialChain.clock c

/-- The latch pulse: the outputs take the stages (R163). -/
def SerialChain.latchPulse (c : SerialChain) : SerialChain := { c with outputs := c.stages }

/-- One call of the Serial Output Primitive: 32 serialized bits, then a pulse of the latch line (R151, R163). -/
def SerialChain.emit (order : SerBitOrder) (w : Word) (c : SerialChain) : SerialChain :=
  (c.shiftIn (serialBits order w)).latchPulse

/-- The outputs of the display's chain for the word in the display latch, in the device's own bit order (R31, R163). -/
def State.displayOutputs (s : State) : Word := (SerialChain.emit Config.serBitOrder s.latch ⟨0#32, 0#32⟩).outputs

end Sys2Proof.Machine
end

