-- ==== Sys2Proof/Safety.lean ====
section
/-! DEFINITION. What counts as a good state and a good run, in the terms the statements use: the invariant of the block,
the swap point, and what a stretch of bus input writes and shows. -/

namespace Sys2Proof.Machine

/-- The phases at which every byte of `rxbuf` is `0x00` (R28): all but CLEAR, which follows the service of an event. -/
def Phase.bufferClear (p : Phase) : Bool := p != .clear

/-- The phases at which the display latch shows `active[layer]`: after this iteration's EMIT and before its ADVANCE. -/
def Phase.afterEmit (p : Phase) : Bool := p == .poll || p == .clear || p == .advance

/-- The start of a refresh cycle: the next step is the EMIT of layer 0 (R160). -/
def State.atCycleStart (s : State) : Prop := s.phase = .emit ∧ s.layer = 0

/-- The invariant of the block. -/
structure State.Inv (s : State) : Prop where
  /-- `rxbuf` is in canonical form -/
  canonical : s.rxbuf.wf = true
  /-- `rxbuf` is all zero except between the service of an event and CLEAR (R28) -/
  clear : s.phase.bufferClear = true → s.rxbuf = Memory.zeroed
  /-- no exchange is due at the start of a cycle: SWAPCHK has just performed it (R63, R158) -/
  swapped : s.atCycleStart → s.swapRequested = false
  /-- between EMIT and ADVANCE the latch holds `active[layer]` (R31, R151) -/
  latched : s.phase.afterEmit = true → s.latch = frameWord s.active s.layer
  /-- every answer to a read transaction is 32 zero bytes (R155) -/
  answered : ∀ t ∈ s.transmitTrace, t = List.replicate txLen 0x00#8

/-- `n` steps of the machine. -/
abbrev runSteps (n : Nat) (s : State) : Host.Outcome State Fault Refusal := Host.Core.run Sys2Proof.core n s

/-- The frame that a bus transaction writes to `staging` when it is serviced: some frame exactly where its receive
succeeds with the tag of WRITECUBE (R130, R131, R154). -/
def frameWritten (t : Transaction) : Option Frame :=
  match eventOf t with
  | .writeAddressed (.ok b) => if tagOf b = opcWritecube then some (frameOfBytes (payloadOf b)) else none
  | _ => none

/-- The frame that `staging` is left with by a stretch of transactions, `f` where none of them writes: the last writer
wins (R114). -/
def lastFrame (f : Frame) (ts : List Transaction) : Frame := ts.foldl (fun g t => (frameWritten t).getD g) f

/-- The frames that `n` refresh cycles show, from a cycle start that shows `f`, under the bus input `ts`, five
transactions a cycle: each cycle shows what the cycles before it wrote last (R162). -/
def shownFrames (f : Frame) : Nat → List Transaction → List Frame
  | 0, _ => []
  | n + 1, ts => f :: shownFrames (lastFrame f (ts.take 5)) n (ts.drop 5)

end Sys2Proof.Machine
end

