-- ==== Sys2Proof/Certificates/Slice0/Obligations.lean ====
section
/-! DEFINITION. The statements for the provers. Each docstring names the rule of spec/ that the statement formalises; where
a statement rests on a choice of the model or on a decision that the spec marks as its own, the docstring says so. -/

open Sys2Proof
open Sys2Proof.Machine

/-! ### Encoding -/

/-- No bit of an encoding is dropped: decoding the message of a well-formed instruction gives it back (R81, R85, R86).
That an instruction carries the ignored bytes too is the model's choice (log 17). -/
def Obligations.DecodeOfEncodeIsIdentity : Prop :=
  ∀ i : Instr, i.wellFormed = true → decode (encode i) = .ok i

/-- Every 34-byte message decodes to a well-formed instruction (R86, R87: no tag is illegal), and is the message of that
instruction. The second clause, that no byte is dropped, rests on the model's choice that an instruction carries the
ignored bytes too (log 17); R86 and R87 do not say it. -/
def Obligations.EncodeOfDecodeIsIdentity : Prop :=
  ∀ msg : List Byte, msg.length = rxLen → ∃ i, decode msg = .ok i ∧ i.wellFormed = true ∧ encode i = msg

/-- The decoder takes messages of `RX_LEN` bytes only (R130). -/
def Obligations.OtherLengthsAreRejected : Prop :=
  ∀ msg : List Byte, msg.length ≠ rxLen → decode msg = .error (.wrongLength msg.length)

/-- The nine rows partition the 256 tags (R86). -/
def Obligations.EveryTagHasExactlyOneRow : Prop :=
  ∀ tag : Byte, (opcodeRows.filter fun r => r.accepts tag).length = 1

/-- Messages written out byte by byte from 95_test_vectors.md decode to the instructions they stand for: C1, C4, C5, C7
(R81, R86; the frame bytes at 2..21 are 90_conflicts.md C1, decision D1 of the spec). -/
def Obligations.SpelledMessagesDecode : Prop :=
  decode ([0x01#8, 0x00#8, 0x01#8, 0x02#8, 0x03#8, 0x04#8, 0x05#8, 0x06#8, 0x07#8, 0x08#8, 0x09#8, 0x0A#8, 0x0B#8, 0x0C#8,
      0x0D#8, 0x0E#8, 0x0F#8, 0x10#8, 0x11#8, 0x12#8, 0x13#8, 0x14#8] ++ List.replicate 12 0x00#8) =
    .ok (.writecube 0x00#8 ⟨0x04030201#32, 0x08070605#32, 0x0C0B0A09#32, 0x100F0E0D#32, 0x14131211#32⟩
      (List.replicate 12 0x00#8)) ∧
  decode ([0x00#8, 0x00#8] ++ List.replicate 32 0xAA#8) = .ok (.rdpgaddr (0x00#8 :: List.replicate 32 0xAA#8)) ∧
  decode (0x02#8 :: List.replicate 33 0xFF#8) = .ok (.unknown02 0#1 (List.replicate 33 0xFF#8)) ∧
  decode (0x81#8 :: List.replicate 33 0x00#8) = .ok (.unknown80 1#7 (List.replicate 33 0x00#8))

/-- DECODE: the tag alone chooses the command. Tag `0x01` assembles and applies bytes 2..21; every other tag raises
`UnknownOpcode` with that tag and does nothing else (R130, R131; the place of the frame bytes is 90_conflicts.md C1,
decision D1 of the spec). -/
def Obligations.TagChoosesTheCommand : Prop :=
  ∀ msg : List Byte, msg.length = rxLen → ∃ i, decode msg = .ok i ∧ i.tag = tagOf msg ∧
    ∀ s : State, exec i s = .next (if tagOf msg = 0x01#8
      then { s with staging := frameOfBytes (sliceBytes msg 2 20), swapRequested := true }
      else { s with diagTrace := s.diagTrace ++ [.unknownOpcode (tagOf msg)] })

/-! ### The commands complete -/

/-- WRITECUBE writes all of `staging` and sets the flag, and changes nothing else: not `active`, not `layer`, no byte of
`rxbuf`, no diagnostic. It does so in every state, whatever the page byte and the padding (R131, R110; that no
diagnostic is produced is decision D21 of the spec). -/
def Obligations.WritecubeCompletes : Prop :=
  ∀ (page : Byte) (frame : Frame) (pad : List Byte) (s : State),
    exec (.writecube page frame pad) s = .next { s with staging := frame, swapRequested := true }

/-- RDPGADDR raises `UnknownOpcode(0x00)` and changes nothing else (R132; decision D27 of the spec). -/
def Obligations.RdpgaddrCompletes : Prop :=
  ∀ (rest : List Byte) (s : State),
    exec (.rdpgaddr rest) s = .next { s with diagTrace := s.diagTrace ++ [.unknownOpcode 0x00#8] }

/-- Each of the seven rows of UNKNOWN raises `UnknownOpcode` with the whole tag byte and changes nothing else (R133). -/
def Obligations.UnknownRowsComplete : Prop :=
  ∀ (rest : List Byte) (s : State),
    (∀ t, exec (.unknown80 t rest) s = .next { s with diagTrace := s.diagTrace ++ [.unknownOpcode (0b1#1 ++ t)] }) ∧
    (∀ t, exec (.unknown40 t rest) s = .next { s with diagTrace := s.diagTrace ++ [.unknownOpcode (0b01#2 ++ t)] }) ∧
    (∀ t, exec (.unknown20 t rest) s = .next { s with diagTrace := s.diagTrace ++ [.unknownOpcode (0b001#3 ++ t)] }) ∧
    (∀ t, exec (.unknown10 t rest) s = .next { s with diagTrace := s.diagTrace ++ [.unknownOpcode (0b0001#4 ++ t)] }) ∧
    (∀ t, exec (.unknown08 t rest) s = .next { s with diagTrace := s.diagTrace ++ [.unknownOpcode (0b00001#5 ++ t)] }) ∧
    (∀ t, exec (.unknown04 t rest) s = .next { s with diagTrace := s.diagTrace ++ [.unknownOpcode (0b000001#6 ++ t)] }) ∧
    (∀ t, exec (.unknown02 t rest) s = .next { s with diagTrace := s.diagTrace ++ [.unknownOpcode (0b0000001#7 ++ t)] })

/-- Last writer wins: a second WRITECUBE before any exchange leaves the state that it alone would have left; with equal
frames this is idempotence (R114, R115). -/
def Obligations.LastWritecubeWins : Prop :=
  ∀ (page page' : Byte) (f g : Frame) (pad pad' : List Byte) (s : State), ∃ t,
    exec (.writecube page f pad) s = .next t ∧
    exec (.writecube page' g pad') t = .next { s with staging := g, swapRequested := true }

/-- The Command Decoder has no access to `active`, `layer` and `phase`: it works the same whatever they hold and leaves
them as they are (R22, R30). -/
def Obligations.DecoderHasNoAccessToTheDisplaySide : Prop :=
  ∀ (i : Instr) (s : State) (a : Frame) (l : Fin 5) (p : Phase),
    exec i { s with active := a, layer := l, phase := p } =
      andThen (exec i s) fun t => { t with active := a, layer := l, phase := p }

/-! ### A step runs the decoded instruction -/

/-- When the bus delivers a message that decodes to `i`, the POLL step is `exec i` with the message in `rxbuf` and the
transaction consumed, and then CLEAR is next (R130, R152, R154). -/
def Obligations.StepRunsDecodedInstruction : Prop :=
  ∀ (s : State) (msg : List Byte) (i : Instr),
    s.phase = .poll → s.input 0 = .write msg true → decode msg = .ok i →
    step s = andThen
      (exec i { s with rxbuf := Memory.ofBytes msg, pending := s.pending.tail, polls := s.polls + 1 })
      fun t => { t with phase := .clear }

/-- A word of the opcode table placed for the next step is run by that step (the model's own way to place a message,
log 8). -/
def Obligations.PlacedTableWordIsRun : Prop :=
  ∀ (s : State) (nbits w : Nat) (i : Instr), decodeTableWord nbits w = some i →
    step (s.withFetchWord nbits w) = andThen
      (exec i { s with phase := .poll, rxbuf := Memory.ofBytes (messageOfTableWord nbits w), polls := s.polls + 1 })
      fun t => { t with phase := .clear }

/-! ### The events -/

/-- The receive of a write transaction by its length, where the interface reports no other failure (R90; decision D5 of
the spec; the opaque policy and the flag are the model's choices, log 9, 11). -/
def Obligations.ReceiveOutcomeByLength : Prop :=
  ∀ sent : List Byte,
    (sent.length = 34 → receiveWrite sent true = .ok sent) ∧
    (sent.length < 34 → receiveWrite sent true = .fail) ∧
    (34 < sent.length → receiveWrite sent true = .fail ∨ receiveWrite sent true = .ok (sent.take 34))

/-- EV_IDLE is a no-op: only the poll itself happens (R153). -/
def Obligations.IdlePollChangesNothing : Prop :=
  ∀ s : State, s.phase = .poll → s.nextEvent = .idle →
    step s = .next { s with phase := .clear, pending := s.pending.tail, polls := s.polls + 1 }

/-- A failed receive is never decoded: it raises `RxFail`, and but for the bytes it leaves in `rxbuf` (unspecified until
CLEAR, decision D30 of the spec) nothing else changes (R134, R203). -/
def Obligations.FailedReceiveOnlyDiagnosed : Prop :=
  ∀ s : State, s.phase = .poll → s.nextEvent = .writeAddressed .fail → ∃ m : Memory,
    step s = .next { s with rxbuf := m, diagTrace := s.diagTrace ++ [.rxFail], phase := .clear,
                            pending := s.pending.tail, polls := s.polls + 1 }

/-- After a successful receive every byte of `rxbuf` is the byte received at that index (R57, R154). That `rxbuf` is also
in canonical form is the model's own form of holding it, a design choice (log 14), which R57 and R154 do not know. -/
def Obligations.ReceiveFillsTheBuffer : Prop :=
  ∀ (s : State) (msg : List Byte), s.phase = .poll → s.nextEvent = .writeAddressed (.ok msg) → ∃ t,
    step s = .next t ∧ t.rxbuf.wf = true ∧ ∀ i : Fin rxLen, t.rxbuf.read i = msg.getD i.val 0x00#8

/-- Operand assembly: after a WRITECUBE message each word of `staging` is the little-endian value of its four bytes, and
the flag is set (R51, R85, R131; the place of the frame bytes is decision D1 of the spec). -/
def Obligations.StagingAssembledLittleEndian : Prop :=
  ∀ (s : State) (msg : List Byte), s.phase = .poll → s.nextEvent = .writeAddressed (.ok msg) →
    tagOf msg = 0x01#8 → ∃ t, step s = .next t ∧ t.swapRequested = true ∧ t.active = s.active ∧
      ∀ k : Fin 5, (frameWord t.staging k).toNat =
        (byteAt msg (2 + 4 * k.val)).toNat + 256 * (byteAt msg (3 + 4 * k.val)).toNat +
          65536 * (byteAt msg (4 + 4 * k.val)).toNat + 16777216 * (byteAt msg (5 + 4 * k.val)).toNat

/-- A full message with any tag other than `0x01` leaves the Frame Store and the layer alone and raises `UnknownOpcode`
with its tag (R87, R132, R133, R202). -/
def Obligations.UnrecognisedMessageOnlyDiagnosed : Prop :=
  ∀ (s : State) (msg : List Byte), s.phase = .poll → s.nextEvent = .writeAddressed (.ok msg) →
    tagOf msg ≠ 0x01#8 →
    step s = .next { s with rxbuf := Memory.ofBytes msg, diagTrace := s.diagTrace ++ [.unknownOpcode (tagOf msg)],
                            phase := .clear, pending := s.pending.tail, polls := s.polls + 1 }

/-- The page byte and the padding change nothing: two messages with the same tag and the same frame bytes lead to states
that differ in `rxbuf` only (R88, R89; decisions D3, D4 of the spec). -/
def Obligations.PageByteAndPaddingIgnored : Prop :=
  ∀ (s : State) (m m' : List Byte) (rest : List Transaction), s.phase = .poll → m.length = 34 → m'.length = 34 →
    tagOf m = tagOf m' → payloadOf m = payloadOf m' → ∃ t,
      step { s with pending := .write m true :: rest } = .next t ∧
      step { s with pending := .write m' true :: rest } = .next { t with rxbuf := Memory.ofBytes m' }

/-- A read transaction is answered with the first 32 bytes of `rxbuf` and logged with its outcome; no other state changes,
for `Ok` and `Fail` alike (R155, R83, R204; 90_conflicts.md C2, C3 and decisions D6, D26 of the spec, log 3). -/
def Obligations.ReadRequestAnsweredFromBuffer : Prop :=
  ∀ (s : State) (r : TransmitResult), s.phase = .poll → s.nextEvent = .readAddressed r →
    step s = .next { s with transmitTrace := s.transmitTrace ++ [s.rxbuf.bytes.take 32],
                            diagTrace := s.diagTrace ++ [.readServiced r], phase := .clear,
                            pending := s.pending.tail, polls := s.polls + 1 }

/-! ### The other steps -/

/-- EMIT gives `active[layer]`, unmodified, to the serializer: the latch and the emit trace take it (R151). -/
def Obligations.EmitShowsTheActiveWord : Prop :=
  ∀ s : State, s.phase = .emit →
    step s = .next { s with latch := frameWord s.active s.layer,
                            emitTrace := s.emitTrace ++ [frameWord s.active s.layer], phase := .poll }

/-- CLEAR zeroes every byte of `rxbuf` and touches nothing else, whatever the event was (R156). That the zeroed buffer is
in canonical form is the model's own form of holding it, a design choice (log 14), which R156 does not know. -/
def Obligations.ClearZeroesTheBuffer : Prop :=
  ∀ s : State, s.phase = .clear → ∃ m : Memory, (∀ i, m.read i = 0x00#8) ∧ m.wf = true ∧
    step s = .next { s with rxbuf := m, phase := .advance }

/-- ADVANCE: `layer = (layer + 1) mod 5`, and nothing else changes (R157, R67). -/
def Obligations.AdvanceCountsModuloFive : Prop :=
  ∀ s : State, s.phase = .advance → ∃ l : Fin 5, l.val = (s.layer.val + 1) % 5 ∧
    step s = .next { s with layer := l, phase := .swapchk }

/-- MAYBE_SWAP exchanges all ten words and clears the flag where the index is 0 and the flag is set, and changes nothing
otherwise; SWAPCHK is MAYBE_SWAP of the layer (R111, R158). -/
def Obligations.SwapchkExchangesAtLayerZero : Prop :=
  (∀ (l : Fin 5) (s : State), s.maybeSwap l =
    if l = 0 ∧ s.swapRequested = true
      then { s with active := s.staging, staging := s.active, swapRequested := false } else s) ∧
  ∀ s : State, s.phase = .swapchk → step s = .next { s.maybeSwap s.layer with phase := .emit }

/-- APPLY copies a 20-byte payload, little-endian, layer 0 first, into `staging`, sets the flag whatever it was, and
changes nothing else; a second APPLY of the same payload changes nothing (R110, R115). -/
def Obligations.ApplyCopiesPayloadAndSetsFlag : Prop :=
  ∀ (p : List Byte) (s : State), p.length = 20 →
    (∃ f : Frame, s.apply p = { s with staging := f, swapRequested := true } ∧
      ∀ k : Fin 5, (frameWord f k).toNat =
        (byteAt p (4 * k.val)).toNat + 256 * (byteAt p (4 * k.val + 1)).toNat +
          65536 * (byteAt p (4 * k.val + 2)).toNat + 16777216 * (byteAt p (4 * k.val + 3)).toNat) ∧
    (s.apply p).apply p = s.apply p

/-- READ_LAYER returns the word of `active` and never observes `staging` (R112). -/
def Obligations.ReadLayerReadsActiveOnly : Prop :=
  ∀ (s : State) (f : Frame),
    s.readLayer 0 = s.active.l0 ∧ s.readLayer 1 = s.active.l1 ∧ s.readLayer 2 = s.active.l2 ∧
    s.readLayer 3 = s.active.l3 ∧ s.readLayer 4 = s.active.l4 ∧
    ∀ l, ({ s with staging := f } : State).readLayer l = s.readLayer l

/-! ### What the whole machine does -/

/-- The block is never stuck and never final: a run of any length from any state, under any bus input, answers a next
state (R161, R200). -/
def Obligations.EveryRunGoesOn : Prop :=
  ∀ (n : Nat) (s : State), ∃ t, runSteps n s = .next t

/-- The phases follow one another in the fixed order, whatever happens (R27, R150; `phase` is decision D11 of the spec,
log 12). -/
def Obligations.PhasesFollowInOrder : Prop :=
  ∀ s : State, ∃ t, step s = .next t ∧
    t.phase = (match s.phase with
      | .emit => .poll
      | .poll => .clear
      | .clear => .advance
      | .advance => .swapchk
      | .swapchk => .emit)

/-- `layer` changes in ADVANCE only: no command, event or diagnostic sets it (R26). -/
def Obligations.LayerChangesOnlyInAdvance : Prop :=
  ∀ s t : State, step s = .next t → s.phase ≠ .advance → t.layer = s.layer

/-- `active` changes only where SWAPCHK runs with layer 0 and the flag set; it then takes the whole of `staging`, which
takes the former `active` (R22, R113). -/
def Obligations.ActiveChangesOnlyAtSwapPoint : Prop :=
  ∀ s t : State, step s = .next t → t.active ≠ s.active →
    s.phase = .swapchk ∧ s.layer = 0 ∧ s.swapRequested = true ∧ t.active = s.staging ∧ t.staging = s.active ∧
      t.swapRequested = false

/-- `staging` and the flag are written by the service of a WRITECUBE message and by the exchange, and by nothing else
(R23, R25). -/
def Obligations.StagingWrittenOnlyByCommandOrExchange : Prop :=
  ∀ s t : State, step s = .next t →
    (s.phase = .poll ∧ ∃ f, frameWritten (s.input 0) = some f ∧ t.staging = f ∧ t.swapRequested = true) ∨
    (s.phase = .swapchk ∧ s.layer = 0 ∧ s.swapRequested = true ∧ t.staging = s.active ∧ t.swapRequested = false) ∨
    (t.staging = s.staging ∧ t.swapRequested = s.swapRequested)

/-- The invariant of the block: `rxbuf` in canonical form and zero but between service and CLEAR, no exchange due at a
cycle start, the latch showing `active[layer]` from EMIT to ADVANCE, and every read answered with zeros. Every step keeps
it (R28, R31, R63, R155). The clause on the canonical form is the model's own form of holding `rxbuf`, a design choice
(log 14) that none of these rules knows; that a read is answered with zeros is decision D6 of the spec (log 3). -/
def Obligations.StepKeepsTheBlockInvariant : Prop :=
  ∀ s t : State, s.Inv → step s = .next t → t.Inv

/-- The reset state meets the invariant of the block (R33; the flag and `rxbuf` are decisions D7, D9 of the spec,
log 6; the canonical form is the model's, log 14). -/
def Obligations.ResetMeetsTheBlockInvariant : Prop := State.reset.Inv

/-- What reset leaves: the values of R33, of which the pattern, the flag, `rxbuf` and the phase are decisions D10, D7, D9
and D11 of the spec (log 6). The values of `staging` and `latch` (log 4, 5) are no part of it. -/
def Obligations.ResetValues : Prop :=
  State.reset.active = ⟨0xF0000001#32, 0xE8000002#32, 0xD8000004#32, 0xB8000008#32, 0x78000010#32⟩ ∧
  State.reset.swapRequested = false ∧ State.reset.layer = 0 ∧ State.reset.phase = .emit ∧
  (∀ i, State.reset.rxbuf.read i = 0x00#8) ∧
  State.reset.emitTrace = [] ∧ State.reset.transmitTrace = [] ∧ State.reset.diagTrace = []

/-- ITERATE: from an iteration boundary with a clear receive buffer, the five steps are the one transition of R159 on the
event that the poll returns, with that bus input consumed. Two arms of R159 rest on decisions of the spec: the frame bytes
at 2..21 on D1 (90_conflicts.md C1, log 1), and the 32 zero bytes of a read on D6 (90_conflicts.md C2, C3, log 3). -/
def Obligations.FiveStepsAreOneIteration : Prop :=
  ∀ s : State, s.phase = .emit → s.rxbuf = Memory.zeroed →
    runSteps 5 s =
      .next (iterate s.nextEvent { s with pending := s.pending.tail, polls := s.polls + 1 })

/-- At most one diagnostic is produced per iteration, and none is ever taken back (R206). -/
def Obligations.AtMostOneDiagnosticPerIteration : Prop :=
  ∀ s : State, s.phase = .emit → ∃ t d, runSteps 5 s = .next t ∧ t.phase = .emit ∧
    t.diagTrace = s.diagTrace ++ d ∧ d.length ≤ 1

/-- No tearing: the five words of a refresh cycle are the five words of the one frame that `active` held at its start,
whatever the bus does during it, and the cycle ends at the start of the next (R160, R64). -/
def Obligations.NoTornCycle : Prop :=
  ∀ s : State, s.atCycleStart → ∃ t, runSteps 25 s = .next t ∧ t.atCycleStart ∧
    t.emitTrace = s.emitTrace ++ s.active.words

/-- The emit trace of `n` cycles is determined by the successful WRITECUBE messages: each cycle shows the frame of the last
one serviced in the cycles before it, and events of other kinds never change it (R162). -/
def Obligations.EmitTraceDeterminedByWrites : Prop :=
  ∀ (n : Nat) (s : State), s.atCycleStart → s.swapRequested = false → ∃ t, runSteps (25 * n) s = .next t ∧
    t.atCycleStart ∧ t.swapRequested = false ∧ t.active = lastFrame s.active (s.inputs (5 * n)) ∧
    t.emitTrace = s.emitTrace ++ (shownFrames s.active n (s.inputs (5 * n))).flatMap Frame.words

/-- A frame serviced at layer `L` becomes `active` at the end of the `(5 - L)`-th iteration counting its own, provided no
later WRITECUBE is serviced before; up to then `active` is what it was (R61, R116, R233). -/
def Obligations.WrittenFrameShownWithinOneCycle : Prop :=
  ∀ (s : State) (f : Frame), s.phase = .poll → frameWritten (s.input 0) = some f →
    (∀ k, 1 ≤ k → k ≤ 4 - s.layer.val → frameWritten (s.input k) = none) →
    (∃ t, runSteps (4 + 5 * (4 - s.layer.val)) s = .next t ∧ t.atCycleStart ∧ t.active = f ∧ t.swapRequested = false) ∧
    ∀ n u, n < 4 + 5 * (4 - s.layer.val) → runSteps n s = .next u → u.active = s.active

/-- The reset contents of `staging` cannot be observed: where the flag is clear, two states that differ in `staging` only
produce the same three output traces for ever, and show the same frame (R34). -/
def Obligations.StagingUnobservableWhileFlagClear : Prop :=
  ∀ (n : Nat) (s : State) (f : Frame), s.swapRequested = false → ∃ t t',
    runSteps n s = .next t ∧ runSteps n { s with staging := f } = .next t' ∧
    t'.emitTrace = t.emitTrace ∧ t'.transmitTrace = t.transmitTrace ∧ t'.diagTrace = t.diagTrace ∧
    t'.active = t.active

/-- No rule reads the display latch or any of the three traces: whatever they hold, a run appends the same words, answers
and records to the traces, leaves the last word it emitted in the latch (what the latch held, where it emitted none), and
the rest of the state evolves the same (R9, R31, R200). -/
def Obligations.OutputsAreNeverRead : Prop :=
  ∀ (n : Nat) (s : State), ∃ (t : State) (emitted : List Word) (sent : List (List Byte)) (logged : List Diag),
    runSteps n s = .next t ∧ t.latch = emitted.getLastD s.latch ∧ t.emitTrace = s.emitTrace ++ emitted ∧
    t.transmitTrace = s.transmitTrace ++ sent ∧ t.diagTrace = s.diagTrace ++ logged ∧
    ∀ (w : Word) (em : List Word) (tx : List (List Byte)) (dg : List Diag),
      runSteps n { s with latch := w, emitTrace := em, transmitTrace := tx, diagTrace := dg } =
        .next { t with latch := emitted.getLastD w, emitTrace := em ++ emitted, transmitTrace := tx ++ sent,
                       diagTrace := dg ++ logged }

/-- From reset, the first cycle emits the default pattern, whatever the list of coming bus transactions holds (R231; the
pattern is decision D10 of the spec, log 6; that list is the model's form of the free input, log 7). -/
def Obligations.FirstCycleShowsTheDefaultPattern : Prop :=
  ∀ bus : List Transaction, ∃ t, runSteps 25 { State.reset with pending := bus } = .next t ∧ t.atCycleStart ∧
    t.emitTrace = [0xF0000001#32, 0xE8000002#32, 0xD8000004#32, 0xB8000008#32, 0x78000010#32]

/-! ### Other designs and the environment -/

/-- The realisation with two buffers and a bank select behaves as the exchange of contents under every sequence of Frame
Store operations (R24; decision D12 of the spec). -/
def Obligations.BankSelectRefinesExchange : Prop :=
  ∀ (ops : List StoreOp) (b : Banks) (s : State), b.agrees s →
    (b.perform ops).agrees (s.perform ops) ∧ ∀ l, (b.perform ops).readLayer l = (s.perform ops).readLayer l

/-- After 32 shift clocks and the latch pulse the chain's outputs hold exactly the 32 bits of the word, in the order of
`SER_BIT_ORDER`, whatever the chain held; during the clocks the outputs do not change (R163, which the spec marks as
general knowledge, G2; log 18). -/
def Obligations.SerializerLatchesTheWholeWord : Prop :=
  ∀ (w : Word) (c : SerialChain),
    (SerialChain.emit .msbFirst w c).outputs = w ∧
    (∀ i, i < 32 → (SerialChain.emit .lsbFirst w c).outputs.getLsbD i = w.getLsbD (31 - i)) ∧
    ∀ bits : List Bool, (c.shiftIn bits).outputs = c.outputs

/-- `frame` is a bijection between 20-byte strings and frames (R117, R11). -/
def Obligations.FrameLayoutIsBijective : Prop :=
  (∀ p : List Byte, p.length = 20 → bytesOfFrame (frameOfBytes p) = p) ∧
  ∀ f : Frame, (bytesOfFrame f).length = 20 ∧ frameOfBytes (bytesOfFrame f) = f

/-- What a host `writePage(d)` writes to `staging`, by the length of `d`: missing frame bytes are zero, bytes past the
twentieth are ignored, and more than 32 bytes put nothing on the bus (R135, R182; decisions D1, D4 of the spec). -/
def Obligations.HostPayloadsByLength : Prop :=
  ∀ d : List Byte,
    (d.length ≤ 20 → frameWritten (.write (HostSide.writeBuffer d) true) =
      some (frameOfBytes (d ++ List.replicate (20 - d.length) 0x00#8))) ∧
    (20 ≤ d.length → d.length ≤ 32 → frameWritten (.write (HostSide.writeBuffer d) true) =
      some (frameOfBytes (d.take 20))) ∧
    (32 < d.length → ∀ intact, HostSide.writePageTransactions d intact = [])

/-- Round trip: a 20-byte pattern that the host writes, received whole, stands in `active` after the next swap point,
unless a later write replaces it (R117; it is this that decides 90_conflicts.md C1). -/
def Obligations.HostWriteRoundTrip : Prop :=
  ∀ (s : State) (x : List Byte), s.phase = .poll → x.length = 20 →
    s.input 0 = .write (HostSide.writeBuffer x) true →
    (∀ k, 1 ≤ k → k ≤ 4 - s.layer.val → frameWritten (s.input k) = none) →
    ∃ t, runSteps (4 + 5 * (4 - s.layer.val)) s = .next t ∧ bytesOfFrame t.active = x

/-- The host's `writePage` and `readPage`: their errors and what they put on the bus (R182, R183). R183 gives `readPage` for
`maxBytes` up to 32 only; that it answers the 32 bytes received, unchecked, for a larger `maxBytes` is the model's choice
(log 20, unsafe outside the host's contract), as is the opaque slave address. -/
def Obligations.HostCallResults : Prop :=
  (∀ buf d k, 32 < d.length → (HostSide.writePage buf d k).sent = none ∧
    (HostSide.writePage buf d k).result = .error .sizeExceeded ∧ (HostSide.writePage buf d k).buffer = buf) ∧
  (∀ buf d k, d.length ≤ 32 →
    (HostSide.writePage buf d k).sent = some ⟨Config.slaveAddr,
      0x01#8 :: 0x00#8 :: (d ++ List.replicate (32 - d.length) 0x00#8)⟩ ∧
    (HostSide.writePage buf d k).result = if k = 34 then .ok () else .error .busTransferFailed) ∧
  (∀ buf m k rx, (HostSide.readPage buf m k rx).sent.bytes = [0x00#8, 0x00#8] ∧
    ((HostSide.readPage buf m k rx).readIssued = true ↔ k = 2) ∧
    (HostSide.readPage buf m k rx).result =
      if k = 2 ∧ rx.length = 32 then .ok (rx.take m) else .error .busTransferFailed)

/-- The Session Guard: a second open while held is refused, and after a close an open succeeds (R185). That a close with
no session held is no move of the host is the model's choice (U1, log 20). -/
def Obligations.SessionGuardExcludes : Prop :=
  HostSide.SessionGuard.free.acquire = .ok .held ∧
  HostSide.SessionGuard.held.acquire = .error .sessionBusy ∧
  HostSide.SessionGuard.held.release = some .free ∧ HostSide.SessionGuard.free.release = none

/-! ### The device file of the host

In all five statements a call runs whole, and so never races with another on the Transfer Buffer: the model's choice
(R187, R242, U11; log 26). -/

/-- The device file and its session: `open` of a free file holds it with a buffer of its own, a second `open` reports
`SessionBusy` and changes nothing, `close` frees it, `write` and `read` run within a held session and keep it. `open` and
`close` put nothing on the bus (R181, R184, R185). That the other three calls are no moves of the host without a session,
and that `open` and `close` answer 0, is the model's choice (U1, log 20, 25). -/
def Obligations.FileCallsFollowTheSession : Prop :=
  (∀ (d : HostSide.Driver) (c : HostSide.FileCall),
    d.call c = none ↔ d.session.guard = .free ∧ c ≠ .openFile) ∧
  ∀ (d : HostSide.Driver) (c : HostSide.FileCall) (r : HostSide.Reply), d.call c = some r →
    (c = .openFile → r.bus = [] ∧ r.driver.session.guard = .held ∧
      (d.session.guard = .free → r.driver.session = .held (HostSide.TransferBuffer.fresh d.opened) ∧ r.result = .ok 0) ∧
      (d.session.guard = .held → r.driver = d ∧ r.result = .error .sessionBusy)) ∧
    (c = .closeFile → r.bus = [] ∧ r.driver.session = .free ∧ r.result = .ok 0) ∧
    (c ≠ .openFile → c ≠ .closeFile → r.driver.session.guard = .held ∧ r.driver.opened = d.opened)

/-- `write(buffer, n)` within a session, by what its size, the marshalling and the transport are: at most one bus write,
of the whole Transfer Buffer, which then holds opcode, page, data and zeros and nothing of an earlier call (R181, R182,
R184, R186). The model's choices (log 25): a success answers `n`; a failed marshalling sends nothing and leaves the Transfer
Buffer as it was; the size is checked before the user memory is touched, so that `SizeExceeded` comes first. -/
def Obligations.DeviceWriteOutcomes : Prop :=
  ∀ (d : HostSide.Driver) (b : HostSide.TransferBuffer) (user : List Byte) (copied accepted : Nat),
    d.session = .held b → ∃ r, d.call (.writeFile user copied accepted) = some r ∧ r.output = [] ∧
      (32 < user.length → r.driver = d ∧ r.bus = [] ∧ r.result = .error .sizeExceeded) ∧
      (user.length ≤ 32 → copied < user.length → r.driver = d ∧ r.bus = [] ∧ r.result = .error .userCopyFailed) ∧
      (user.length ≤ 32 → user.length ≤ copied →
        (∃ b', r.driver.session = .held b' ∧
          b'.bytes = 0x01#8 :: 0x00#8 :: (user ++ List.replicate (32 - user.length) 0x00#8) ∧
          r.bus = [.write ⟨Config.slaveAddr, b'.bytes⟩]) ∧
        r.result = if accepted = 34 then .ok user.length else .error .busTransferFailed)

/-- `read(buffer, n)` within a session, by what its size, the transport and the marshalling are: the address write, then
one read of 32 bytes exactly if both bytes were accepted; the payload of the Transfer Buffer stays; a transport error
leaves the caller's buffer untouched; a success copies `n` bytes and answers `n` (R181, R183, R184, R186). The model's
choices (log 25): `n` above 32 is reported as `SizeExceeded`, before anything is sent or changed; a failed marshalling
leaves the bytes it moved. -/
def Obligations.DeviceReadOutcomes : Prop :=
  ∀ (d : HostSide.Driver) (b : HostSide.TransferBuffer) (n accepted : Nat) (received : List Byte) (copied : Nat),
    d.session = .held b → ∃ r, d.call (.readFile n accepted received copied) = some r ∧
      (32 < n → r.driver = d ∧ r.bus = [] ∧ r.output = [] ∧ r.result = .error .sizeExceeded) ∧
      (n ≤ 32 →
        (∃ b', r.driver.session = .held b' ∧ b'.bytes = [0x00#8, 0x00#8] ++ b.bytes.drop 2) ∧
        r.bus = .write ⟨Config.slaveAddr, [0x00#8, 0x00#8]⟩ ::
          (if accepted = 2 then [.read Config.slaveAddr 32] else []) ∧
        (¬ (accepted = 2 ∧ received.length = 32) → r.output = [] ∧ r.result = .error .busTransferFailed) ∧
        (accepted = 2 → received.length = 32 → copied < n →
          r.output = received.take (min copied n) ∧ r.result = .error .userCopyFailed) ∧
        (accepted = 2 → received.length = 32 → n ≤ copied → r.output = received.take n ∧ r.output.length = n ∧
          r.result = .ok n))

/-- Every error of a host call is one of four of the taxonomy (`UnknownOpcode` is the block's alone) and is returned as a
negative size, once: no call puts two writes or two reads on the bus. A success returns a size that is not negative
(R186, R201). -/
def Obligations.HostErrorsAreNegativeSizes : Prop :=
  ∀ (d : HostSide.Driver) (c : HostSide.FileCall) (r : HostSide.Reply), d.call c = some r →
    (HostSide.returnValue r.result < 0 ↔ r.result = .error .sizeExceeded ∨ r.result = .error .busTransferFailed ∨
      r.result = .error .sessionBusy ∨ r.result = .error .userCopyFailed) ∧
    (∀ n : Nat, r.result = .ok n ↔ HostSide.returnValue r.result = n) ∧
    (r.bus = [] ∨ (∃ w, r.bus = [.write w]) ∨ ∃ w a n, r.bus = [.write w, .read a n])

/-- What this host puts on the bus: only three kinds of transaction, all to the block's address: a 34-byte write with tag
`0x01`, page `0x00` and the caller's bytes with zeros after them; a 2-byte write `00 00`; a 32-byte read (R188, which
the spec derives from R182, R183 and R184). That no mixed message of racing calls is among them is the model's choice
(log 26). -/
def Obligations.HostBusTrafficHasThreeKinds : Prop :=
  ∀ (d : HostSide.Driver) (c : HostSide.FileCall) (r : HostSide.Reply) (a : HostSide.BusAction),
    d.call c = some r → a ∈ r.bus →
    (∃ user copied accepted, c = .writeFile user copied accepted ∧ user.length ≤ 32 ∧
      a = .write ⟨Config.slaveAddr, 0x01#8 :: 0x00#8 :: (user ++ List.replicate (32 - user.length) 0x00#8)⟩) ∨
    a = .write ⟨Config.slaveAddr, [0x00#8, 0x00#8]⟩ ∨
    a = .read Config.slaveAddr 32
end

