-- ==== Sys2Proof/Laws/Memory.lean ====
section
/-! SUPPORT. The receive buffer: every operation keeps its canonical form, and a read after a write gives what was
written. -/

namespace Sys2Proof.Machine

/-- The cleared buffer is in canonical form. -/
@[simp] theorem Memory.wf_zeroed : Memory.zeroed.wf = true := rfl

/-- The cleared buffer reads `0x00` everywhere (R156). -/
@[simp] theorem Memory.read_zeroed (i : Fin rxLen) : Memory.zeroed.read i = 0x00#8 := rfl

/-- The bytes of the cleared buffer (R156). -/
theorem Memory.bytes_zeroed : Memory.zeroed.bytes = List.replicate rxLen 0x00#8 := by decide

theorem Memory.wfFrom_mono {a a' : Nat} {m : Memory} (ha : a' ≤ a) (h : Memory.wfFrom a m = true) :
    Memory.wfFrom a' m = true := by
  cases m with
  | nil => rfl
  | cons c m =>
    obtain ⟨k, b⟩ := c
    simp only [Memory.wfFrom, Bool.and_eq_true, decide_eq_true_eq] at h ⊢
    exact ⟨⟨⟨by omega, h.1.1.2⟩, h.1.2⟩, h.2⟩

theorem Memory.wfFrom_cellsFrom (bs : List Byte) (a : Nat) (h : a + bs.length ≤ rxLen) :
    Memory.wfFrom a (Memory.cellsFrom a bs) = true := by
  induction bs generalizing a with
  | nil => rfl
  | cons b bs ih =>
    simp only [List.length_cons] at h
    have hr := ih (a + 1) (by omega)
    by_cases hb : b = unlistedByte
    · simp only [Memory.cellsFrom, hb, if_true]
      exact Memory.wfFrom_mono (by omega) hr
    · simp only [Memory.cellsFrom, hb, if_false, Memory.wfFrom, hr, Bool.and_true, Bool.and_eq_true,
        decide_eq_true_eq]
      exact ⟨⟨Nat.le_refl _, by omega⟩, bne_iff_ne.mpr hb⟩

/-- Filling the buffer keeps the canonical form, whatever it held. -/
@[simp] theorem Memory.wf_ofBytes (bs : List Byte) : (Memory.ofBytes bs).wf = true :=
  Memory.wfFrom_cellsFrom _ 0 (by simp)

theorem Memory.read_cellsFrom_below (bs : List Byte) (a : Nat) (i : Fin rxLen) (h : i.val < a) :
    (Memory.cellsFrom a bs).read i = unlistedByte := by
  induction bs generalizing a with
  | nil => rfl
  | cons b bs ih =>
    unfold Memory.cellsFrom
    split
    · exact ih _ (by omega)
    · simp only [Memory.read, if_neg (show ¬ a = i.val by omega)]
      exact ih _ (by omega)

theorem Memory.read_cellsFrom (bs : List Byte) (a : Nat) (i : Fin rxLen) (h : a ≤ i.val) :
    (Memory.cellsFrom a bs).read i = byteAt bs (i.val - a) := by
  induction bs generalizing a with
  | nil => rfl
  | cons b bs ih =>
    by_cases hi : a = i.val
    · unfold Memory.cellsFrom
      split
      · rw [Memory.read_cellsFrom_below _ _ _ (by omega)]
        simp [byteAt, *]
      · simp [Memory.read, byteAt, hi]
    · have hs : i.val - a = i.val - (a + 1) + 1 := by omega
      have hr := ih (a + 1) (by omega)
      unfold Memory.cellsFrom
      split <;> simp_all [Memory.read, byteAt]

/-- A read after the buffer is filled gives the byte written there (R57, R154). -/
theorem Memory.read_ofBytes (bs : List Byte) (i : Fin rxLen) : (Memory.ofBytes bs).read i = byteAt bs i.val := by
  rw [Memory.ofBytes, Memory.read_cellsFrom _ _ _ (Nat.zero_le _)]
  have := i.isLt
  simp only [Nat.sub_zero, byteAt, List.getD_eq_getElem?_getD, List.getElem?_take]
  simp only [i.isLt, if_true]

/-- The buffer always has `RX_LEN` bytes (R28). -/
@[simp] theorem Memory.length_bytes (m : Memory) : m.bytes.length = rxLen := by simp [Memory.bytes]

/-- The bytes of a filled buffer are the bytes received (R57, R154). -/
theorem Memory.bytes_ofBytes (bs : List Byte) (h : bs.length = rxLen) : (Memory.ofBytes bs).bytes = bs := by
  apply List.ext_getElem (by simp [h])
  intro n h1 h2
  simp only [Memory.bytes, List.getElem_ofFn, Memory.read_ofBytes, byteAt, List.getD_eq_getElem?_getD,
    List.getElem?_eq_getElem h2, Option.getD_some]

end Sys2Proof.Machine
end

