-- ==== Sys2Proof/Laws/State.lean ====
section
/-! SUPPORT. One lemma per field per update of the state, so that no proof unfolds a record update. -/

namespace Sys2Proof.Machine

/-! ### `State.setSwapRequested` -/

@[simp] theorem State.setSwapRequested_active (s : State) : s.setSwapRequested.active = s.active := rfl
@[simp] theorem State.setSwapRequested_staging (s : State) : s.setSwapRequested.staging = s.staging := rfl
@[simp] theorem State.setSwapRequested_swapRequested (s : State) : s.setSwapRequested.swapRequested = true := rfl
@[simp] theorem State.setSwapRequested_layer (s : State) : s.setSwapRequested.layer = s.layer := rfl
@[simp] theorem State.setSwapRequested_rxbuf (s : State) : s.setSwapRequested.rxbuf = s.rxbuf := rfl
@[simp] theorem State.setSwapRequested_phase (s : State) : s.setSwapRequested.phase = s.phase := rfl
@[simp] theorem State.setSwapRequested_latch (s : State) : s.setSwapRequested.latch = s.latch := rfl
@[simp] theorem State.setSwapRequested_emitTrace (s : State) : s.setSwapRequested.emitTrace = s.emitTrace := rfl
@[simp] theorem State.setSwapRequested_transmitTrace (s : State) : s.setSwapRequested.transmitTrace = s.transmitTrace := rfl
@[simp] theorem State.setSwapRequested_diagTrace (s : State) : s.setSwapRequested.diagTrace = s.diagTrace := rfl
@[simp] theorem State.setSwapRequested_pending (s : State) : s.setSwapRequested.pending = s.pending := rfl
@[simp] theorem State.setSwapRequested_polls (s : State) : s.setSwapRequested.polls = s.polls := rfl

/-! ### `State.clearSwapRequested` -/

@[simp] theorem State.clearSwapRequested_active (s : State) : s.clearSwapRequested.active = s.active := rfl
@[simp] theorem State.clearSwapRequested_staging (s : State) : s.clearSwapRequested.staging = s.staging := rfl
@[simp] theorem State.clearSwapRequested_swapRequested (s : State) : s.clearSwapRequested.swapRequested = false := rfl
@[simp] theorem State.clearSwapRequested_layer (s : State) : s.clearSwapRequested.layer = s.layer := rfl
@[simp] theorem State.clearSwapRequested_rxbuf (s : State) : s.clearSwapRequested.rxbuf = s.rxbuf := rfl
@[simp] theorem State.clearSwapRequested_phase (s : State) : s.clearSwapRequested.phase = s.phase := rfl
@[simp] theorem State.clearSwapRequested_latch (s : State) : s.clearSwapRequested.latch = s.latch := rfl
@[simp] theorem State.clearSwapRequested_emitTrace (s : State) : s.clearSwapRequested.emitTrace = s.emitTrace := rfl
@[simp] theorem State.clearSwapRequested_transmitTrace (s : State) : s.clearSwapRequested.transmitTrace = s.transmitTrace := rfl
@[simp] theorem State.clearSwapRequested_diagTrace (s : State) : s.clearSwapRequested.diagTrace = s.diagTrace := rfl
@[simp] theorem State.clearSwapRequested_pending (s : State) : s.clearSwapRequested.pending = s.pending := rfl
@[simp] theorem State.clearSwapRequested_polls (s : State) : s.clearSwapRequested.polls = s.polls := rfl

/-! ### `State.applyFrame` -/

@[simp] theorem State.applyFrame_active (f : Frame) (s : State) : (s.applyFrame f).active = s.active := rfl
@[simp] theorem State.applyFrame_staging (f : Frame) (s : State) : (s.applyFrame f).staging = f := rfl
@[simp] theorem State.applyFrame_swapRequested (f : Frame) (s : State) : (s.applyFrame f).swapRequested = true := rfl
@[simp] theorem State.applyFrame_layer (f : Frame) (s : State) : (s.applyFrame f).layer = s.layer := rfl
@[simp] theorem State.applyFrame_rxbuf (f : Frame) (s : State) : (s.applyFrame f).rxbuf = s.rxbuf := rfl
@[simp] theorem State.applyFrame_phase (f : Frame) (s : State) : (s.applyFrame f).phase = s.phase := rfl
@[simp] theorem State.applyFrame_latch (f : Frame) (s : State) : (s.applyFrame f).latch = s.latch := rfl
@[simp] theorem State.applyFrame_emitTrace (f : Frame) (s : State) : (s.applyFrame f).emitTrace = s.emitTrace := rfl
@[simp] theorem State.applyFrame_transmitTrace (f : Frame) (s : State) : (s.applyFrame f).transmitTrace = s.transmitTrace := rfl
@[simp] theorem State.applyFrame_diagTrace (f : Frame) (s : State) : (s.applyFrame f).diagTrace = s.diagTrace := rfl
@[simp] theorem State.applyFrame_pending (f : Frame) (s : State) : (s.applyFrame f).pending = s.pending := rfl
@[simp] theorem State.applyFrame_polls (f : Frame) (s : State) : (s.applyFrame f).polls = s.polls := rfl

/-! ### `State.exchange` -/

@[simp] theorem State.exchange_active (s : State) : s.exchange.active = s.staging := rfl
@[simp] theorem State.exchange_staging (s : State) : s.exchange.staging = s.active := rfl
@[simp] theorem State.exchange_swapRequested (s : State) : s.exchange.swapRequested = s.swapRequested := rfl
@[simp] theorem State.exchange_layer (s : State) : s.exchange.layer = s.layer := rfl
@[simp] theorem State.exchange_rxbuf (s : State) : s.exchange.rxbuf = s.rxbuf := rfl
@[simp] theorem State.exchange_phase (s : State) : s.exchange.phase = s.phase := rfl
@[simp] theorem State.exchange_latch (s : State) : s.exchange.latch = s.latch := rfl
@[simp] theorem State.exchange_emitTrace (s : State) : s.exchange.emitTrace = s.emitTrace := rfl
@[simp] theorem State.exchange_transmitTrace (s : State) : s.exchange.transmitTrace = s.transmitTrace := rfl
@[simp] theorem State.exchange_diagTrace (s : State) : s.exchange.diagTrace = s.diagTrace := rfl
@[simp] theorem State.exchange_pending (s : State) : s.exchange.pending = s.pending := rfl
@[simp] theorem State.exchange_polls (s : State) : s.exchange.polls = s.polls := rfl

/-! ### `State.fillRxbuf` -/

@[simp] theorem State.fillRxbuf_active (bs : List Byte) (s : State) : (s.fillRxbuf bs).active = s.active := rfl
@[simp] theorem State.fillRxbuf_staging (bs : List Byte) (s : State) : (s.fillRxbuf bs).staging = s.staging := rfl
@[simp] theorem State.fillRxbuf_swapRequested (bs : List Byte) (s : State) : (s.fillRxbuf bs).swapRequested = s.swapRequested := rfl
@[simp] theorem State.fillRxbuf_layer (bs : List Byte) (s : State) : (s.fillRxbuf bs).layer = s.layer := rfl
@[simp] theorem State.fillRxbuf_rxbuf (bs : List Byte) (s : State) : (s.fillRxbuf bs).rxbuf = Memory.ofBytes bs := rfl
@[simp] theorem State.fillRxbuf_phase (bs : List Byte) (s : State) : (s.fillRxbuf bs).phase = s.phase := rfl
@[simp] theorem State.fillRxbuf_latch (bs : List Byte) (s : State) : (s.fillRxbuf bs).latch = s.latch := rfl
@[simp] theorem State.fillRxbuf_emitTrace (bs : List Byte) (s : State) : (s.fillRxbuf bs).emitTrace = s.emitTrace := rfl
@[simp] theorem State.fillRxbuf_transmitTrace (bs : List Byte) (s : State) : (s.fillRxbuf bs).transmitTrace = s.transmitTrace := rfl
@[simp] theorem State.fillRxbuf_diagTrace (bs : List Byte) (s : State) : (s.fillRxbuf bs).diagTrace = s.diagTrace := rfl
@[simp] theorem State.fillRxbuf_pending (bs : List Byte) (s : State) : (s.fillRxbuf bs).pending = s.pending := rfl
@[simp] theorem State.fillRxbuf_polls (bs : List Byte) (s : State) : (s.fillRxbuf bs).polls = s.polls := rfl

/-! ### `State.raise` -/

@[simp] theorem State.raise_active (d : Diag) (s : State) : (s.raise d).active = s.active := rfl
@[simp] theorem State.raise_staging (d : Diag) (s : State) : (s.raise d).staging = s.staging := rfl
@[simp] theorem State.raise_swapRequested (d : Diag) (s : State) : (s.raise d).swapRequested = s.swapRequested := rfl
@[simp] theorem State.raise_layer (d : Diag) (s : State) : (s.raise d).layer = s.layer := rfl
@[simp] theorem State.raise_rxbuf (d : Diag) (s : State) : (s.raise d).rxbuf = s.rxbuf := rfl
@[simp] theorem State.raise_phase (d : Diag) (s : State) : (s.raise d).phase = s.phase := rfl
@[simp] theorem State.raise_latch (d : Diag) (s : State) : (s.raise d).latch = s.latch := rfl
@[simp] theorem State.raise_emitTrace (d : Diag) (s : State) : (s.raise d).emitTrace = s.emitTrace := rfl
@[simp] theorem State.raise_transmitTrace (d : Diag) (s : State) : (s.raise d).transmitTrace = s.transmitTrace := rfl
@[simp] theorem State.raise_diagTrace (d : Diag) (s : State) : (s.raise d).diagTrace = s.diagTrace ++ [d] := rfl
@[simp] theorem State.raise_pending (d : Diag) (s : State) : (s.raise d).pending = s.pending := rfl
@[simp] theorem State.raise_polls (d : Diag) (s : State) : (s.raise d).polls = s.polls := rfl

/-! ### `State.serialEmit` -/

@[simp] theorem State.serialEmit_active (w : Word) (s : State) : (s.serialEmit w).active = s.active := rfl
@[simp] theorem State.serialEmit_staging (w : Word) (s : State) : (s.serialEmit w).staging = s.staging := rfl
@[simp] theorem State.serialEmit_swapRequested (w : Word) (s : State) : (s.serialEmit w).swapRequested = s.swapRequested := rfl
@[simp] theorem State.serialEmit_layer (w : Word) (s : State) : (s.serialEmit w).layer = s.layer := rfl
@[simp] theorem State.serialEmit_rxbuf (w : Word) (s : State) : (s.serialEmit w).rxbuf = s.rxbuf := rfl
@[simp] theorem State.serialEmit_phase (w : Word) (s : State) : (s.serialEmit w).phase = s.phase := rfl
@[simp] theorem State.serialEmit_latch (w : Word) (s : State) : (s.serialEmit w).latch = w := rfl
@[simp] theorem State.serialEmit_emitTrace (w : Word) (s : State) : (s.serialEmit w).emitTrace = s.emitTrace ++ [w] := rfl
@[simp] theorem State.serialEmit_transmitTrace (w : Word) (s : State) : (s.serialEmit w).transmitTrace = s.transmitTrace := rfl
@[simp] theorem State.serialEmit_diagTrace (w : Word) (s : State) : (s.serialEmit w).diagTrace = s.diagTrace := rfl
@[simp] theorem State.serialEmit_pending (w : Word) (s : State) : (s.serialEmit w).pending = s.pending := rfl
@[simp] theorem State.serialEmit_polls (w : Word) (s : State) : (s.serialEmit w).polls = s.polls := rfl

/-! ### `State.transmit` -/

@[simp] theorem State.transmit_active (t : List Byte) (s : State) : (s.transmit t).active = s.active := rfl
@[simp] theorem State.transmit_staging (t : List Byte) (s : State) : (s.transmit t).staging = s.staging := rfl
@[simp] theorem State.transmit_swapRequested (t : List Byte) (s : State) : (s.transmit t).swapRequested = s.swapRequested := rfl
@[simp] theorem State.transmit_layer (t : List Byte) (s : State) : (s.transmit t).layer = s.layer := rfl
@[simp] theorem State.transmit_rxbuf (t : List Byte) (s : State) : (s.transmit t).rxbuf = s.rxbuf := rfl
@[simp] theorem State.transmit_phase (t : List Byte) (s : State) : (s.transmit t).phase = s.phase := rfl
@[simp] theorem State.transmit_latch (t : List Byte) (s : State) : (s.transmit t).latch = s.latch := rfl
@[simp] theorem State.transmit_emitTrace (t : List Byte) (s : State) : (s.transmit t).emitTrace = s.emitTrace := rfl
@[simp] theorem State.transmit_transmitTrace (t : List Byte) (s : State) : (s.transmit t).transmitTrace = s.transmitTrace ++ [t] := rfl
@[simp] theorem State.transmit_diagTrace (t : List Byte) (s : State) : (s.transmit t).diagTrace = s.diagTrace := rfl
@[simp] theorem State.transmit_pending (t : List Byte) (s : State) : (s.transmit t).pending = s.pending := rfl
@[simp] theorem State.transmit_polls (t : List Byte) (s : State) : (s.transmit t).polls = s.polls := rfl

/-! ### `State.consumeInput` -/

@[simp] theorem State.consumeInput_active (s : State) : s.consumeInput.active = s.active := rfl
@[simp] theorem State.consumeInput_staging (s : State) : s.consumeInput.staging = s.staging := rfl
@[simp] theorem State.consumeInput_swapRequested (s : State) : s.consumeInput.swapRequested = s.swapRequested := rfl
@[simp] theorem State.consumeInput_layer (s : State) : s.consumeInput.layer = s.layer := rfl
@[simp] theorem State.consumeInput_rxbuf (s : State) : s.consumeInput.rxbuf = s.rxbuf := rfl
@[simp] theorem State.consumeInput_phase (s : State) : s.consumeInput.phase = s.phase := rfl
@[simp] theorem State.consumeInput_latch (s : State) : s.consumeInput.latch = s.latch := rfl
@[simp] theorem State.consumeInput_emitTrace (s : State) : s.consumeInput.emitTrace = s.emitTrace := rfl
@[simp] theorem State.consumeInput_transmitTrace (s : State) : s.consumeInput.transmitTrace = s.transmitTrace := rfl
@[simp] theorem State.consumeInput_diagTrace (s : State) : s.consumeInput.diagTrace = s.diagTrace := rfl
@[simp] theorem State.consumeInput_pending (s : State) : s.consumeInput.pending = s.pending.tail := rfl
@[simp] theorem State.consumeInput_polls (s : State) : s.consumeInput.polls = s.polls + 1 := rfl

/-! ### `State.goto` -/

@[simp] theorem State.goto_active (p : Phase) (s : State) : (s.goto p).active = s.active := rfl
@[simp] theorem State.goto_staging (p : Phase) (s : State) : (s.goto p).staging = s.staging := rfl
@[simp] theorem State.goto_swapRequested (p : Phase) (s : State) : (s.goto p).swapRequested = s.swapRequested := rfl
@[simp] theorem State.goto_layer (p : Phase) (s : State) : (s.goto p).layer = s.layer := rfl
@[simp] theorem State.goto_rxbuf (p : Phase) (s : State) : (s.goto p).rxbuf = s.rxbuf := rfl
@[simp] theorem State.goto_phase (p : Phase) (s : State) : (s.goto p).phase = p := rfl
@[simp] theorem State.goto_latch (p : Phase) (s : State) : (s.goto p).latch = s.latch := rfl
@[simp] theorem State.goto_emitTrace (p : Phase) (s : State) : (s.goto p).emitTrace = s.emitTrace := rfl
@[simp] theorem State.goto_transmitTrace (p : Phase) (s : State) : (s.goto p).transmitTrace = s.transmitTrace := rfl
@[simp] theorem State.goto_diagTrace (p : Phase) (s : State) : (s.goto p).diagTrace = s.diagTrace := rfl
@[simp] theorem State.goto_pending (p : Phase) (s : State) : (s.goto p).pending = s.pending := rfl
@[simp] theorem State.goto_polls (p : Phase) (s : State) : (s.goto p).polls = s.polls := rfl

/-! ### `State.maybeSwap`: the exchange where it is due, nothing otherwise (R111) -/

theorem State.maybeSwap_due (l : Fin 5) (s : State) (h : s.swapDue l = true) :
    s.maybeSwap l = s.exchange.clearSwapRequested := by simp [State.maybeSwap, h]

theorem State.maybeSwap_not_due (l : Fin 5) (s : State) (h : s.swapDue l = false) : s.maybeSwap l = s := by
  simp [State.maybeSwap, h]

@[simp] theorem State.maybeSwap_layer (l : Fin 5) (s : State) : (s.maybeSwap l).layer = s.layer := by
  unfold State.maybeSwap; split <;> rfl
@[simp] theorem State.maybeSwap_rxbuf (l : Fin 5) (s : State) : (s.maybeSwap l).rxbuf = s.rxbuf := by
  unfold State.maybeSwap; split <;> rfl
@[simp] theorem State.maybeSwap_phase (l : Fin 5) (s : State) : (s.maybeSwap l).phase = s.phase := by
  unfold State.maybeSwap; split <;> rfl
@[simp] theorem State.maybeSwap_latch (l : Fin 5) (s : State) : (s.maybeSwap l).latch = s.latch := by
  unfold State.maybeSwap; split <;> rfl
@[simp] theorem State.maybeSwap_emitTrace (l : Fin 5) (s : State) : (s.maybeSwap l).emitTrace = s.emitTrace := by
  unfold State.maybeSwap; split <;> rfl
@[simp] theorem State.maybeSwap_transmitTrace (l : Fin 5) (s : State) : (s.maybeSwap l).transmitTrace = s.transmitTrace := by
  unfold State.maybeSwap; split <;> rfl
@[simp] theorem State.maybeSwap_diagTrace (l : Fin 5) (s : State) : (s.maybeSwap l).diagTrace = s.diagTrace := by
  unfold State.maybeSwap; split <;> rfl
@[simp] theorem State.maybeSwap_pending (l : Fin 5) (s : State) : (s.maybeSwap l).pending = s.pending := by
  unfold State.maybeSwap; split <;> rfl
@[simp] theorem State.maybeSwap_polls (l : Fin 5) (s : State) : (s.maybeSwap l).polls = s.polls := by
  unfold State.maybeSwap; split <;> rfl

/-! ### `State.input`: what a poll takes from the bus -/

/-- After a poll the inputs stand one place nearer (R65). -/
@[simp] theorem State.consumeInput_input (s : State) (k : Nat) : s.consumeInput.input k = s.input (k + 1) := by
  have h : s.polls + 1 + k = s.polls + (k + 1) := by omega
  cases hp : s.pending <;> simp [State.input, hp, h]

/-- The inputs depend on the bus fields only. -/
theorem State.input_congr {s t : State} (hp : t.pending = s.pending) (hn : t.polls = s.polls) : t.input = s.input := by
  funext k; simp [State.input, hp, hn]

end Sys2Proof.Machine
end

