-- ==== Sys2Proof/Laws/Decode.lean ====
section
/-! SUPPORT. What the decoder answers for a 34-byte message, and what the Command Decoder then does. -/

namespace Sys2Proof

open Sys2Proof.Machine

/-! ### The rows of the opcode map -/

theorem rowWritecube_accepts (tag : Byte) : rowWritecube.accepts tag = decide (tag = opcWritecube) := by
  revert tag; decide

theorem rowRdpgaddr_accepts (tag : Byte) : rowRdpgaddr.accepts tag = decide (tag = opcRdpgaddr) := by
  revert tag; decide

/-- A row of UNKNOWN gives the tag back from its free bits. -/
theorem row80_tag : ∀ tag : Byte, row80.accepts tag = true → 0b1#1 ++ tag.extractLsb' 0 7 = tag := by decide
theorem row40_tag : ∀ tag : Byte, row40.accepts tag = true → 0b01#2 ++ tag.extractLsb' 0 6 = tag := by decide
theorem row20_tag : ∀ tag : Byte, row20.accepts tag = true → 0b001#3 ++ tag.extractLsb' 0 5 = tag := by decide
theorem row10_tag : ∀ tag : Byte, row10.accepts tag = true → 0b0001#4 ++ tag.extractLsb' 0 4 = tag := by decide
theorem row08_tag : ∀ tag : Byte, row08.accepts tag = true → 0b00001#5 ++ tag.extractLsb' 0 3 = tag := by decide
theorem row04_tag : ∀ tag : Byte, row04.accepts tag = true → 0b000001#6 ++ tag.extractLsb' 0 2 = tag := by decide
theorem row02_tag : ∀ tag : Byte, row02.accepts tag = true → 0b0000001#7 ++ tag.extractLsb' 0 1 = tag := by decide

/-- Some row matches every tag. -/
theorem some_row_accepts : ∀ tag : Byte, (opcodeRows.any fun r => r.accepts tag) = true := by decide

/-! ### The decoder (R130) -/

/-- A message with the tag of WRITECUBE. -/
theorem decode_writecube (msg : List Byte) (hl : msg.length = rxLen) (ht : tagOf msg = opcWritecube) :
    decode msg = .ok (.writecube (byteAt msg 1) (frameOfBytes (payloadOf msg)) (msg.drop (payloadOffset + frameBytes))) := by
  simp [decode, decodeMessage, hl, rowWritecube_accepts, ht]

/-- A message with any other tag decodes to an instruction that raises `UnknownOpcode` with that tag and does nothing
else (R87, R132, R133). -/
theorem decode_unrecognised (msg : List Byte) (hl : msg.length = rxLen) (ht : tagOf msg ≠ opcWritecube) :
    ∃ i, decode msg = .ok i ∧ ∀ s, exec i s = .next (s.unrecognised (tagOf msg)) := by
  have hany := some_row_accepts (tagOf msg)
  simp only [decode, decodeMessage, hl, if_true, rowWritecube_accepts, ht, decide_false, Bool.false_eq_true, if_false]
  simp only [opcodeRows, List.any_cons, List.any_nil, rowWritecube_accepts, ht, decide_false, Bool.false_or,
    Bool.or_false, Bool.or_eq_true] at hany
  split
  · rename_i h
    rw [rowRdpgaddr_accepts] at h
    exact ⟨_, rfl, fun s => by simp [exec, execRdpgaddr, of_decide_eq_true h]⟩
  split
  · rename_i h; exact ⟨_, rfl, fun s => by simp only [exec, execUnknown80, row80_tag _ h]⟩
  split
  · rename_i h; exact ⟨_, rfl, fun s => by simp only [exec, execUnknown40, row40_tag _ h]⟩
  split
  · rename_i h; exact ⟨_, rfl, fun s => by simp only [exec, execUnknown20, row20_tag _ h]⟩
  split
  · rename_i h; exact ⟨_, rfl, fun s => by simp only [exec, execUnknown10, row10_tag _ h]⟩
  split
  · rename_i h; exact ⟨_, rfl, fun s => by simp only [exec, execUnknown08, row08_tag _ h]⟩
  split
  · rename_i h; exact ⟨_, rfl, fun s => by simp only [exec, execUnknown04, row04_tag _ h]⟩
  split
  · rename_i h; exact ⟨_, rfl, fun s => by simp only [exec, execUnknown02, row02_tag _ h]⟩
  · simp_all

/-- DECODE on a full message: WRITECUBE applies bytes 2..21, every other tag is a no-op with a diagnostic (R130). -/
theorem commandDecoder_fillRxbuf (msg : List Byte) (s : State) (hl : msg.length = rxLen) :
    commandDecoder (s.fillRxbuf msg) =
      .next (if tagOf msg = opcWritecube then (s.fillRxbuf msg).apply (payloadOf msg)
        else (s.fillRxbuf msg).unrecognised (tagOf msg)) := by
  simp only [commandDecoder, State.fillRxbuf_rxbuf, Memory.bytes_ofBytes msg hl]
  split
  · rename_i i hd
    by_cases ht : tagOf msg = opcWritecube
    · rw [decode_writecube msg hl ht] at hd
      obtain rfl : _ = i := Except.ok.inj hd
      simp [ht, exec, execWritecube, State.apply]
    · obtain ⟨j, hj, hx⟩ := decode_unrecognised msg hl ht
      obtain rfl : j = i := Except.ok.inj (hj.symm.trans hd)
      simp [ht, hx]
  · rename_i e hd
    by_cases ht : tagOf msg = opcWritecube
    · simp [decode_writecube msg hl ht] at hd
    · obtain ⟨j, hj, -⟩ := decode_unrecognised msg hl ht
      simp [hj] at hd

end Sys2Proof
end

