-- ==== Sys2Proof/Laws/HostSide.lean ====
section
/-! SUPPORT. What a call on the device file can do, said once. -/

namespace Sys2Proof.Machine.HostSide

/-- The bytes of a filled buffer. -/
@[simp] theorem TransferBuffer.filled_bytes (data : List Byte) : (TransferBuffer.filled data).bytes = writeBuffer data := rfl

/-- The bytes of an addressed buffer. -/
@[simp] theorem TransferBuffer.addressed_bytes (b : TransferBuffer) :
    b.addressed.bytes = readAddressBytes ++ b.bytes.drop 2 := rfl

/-- A message of at most 32 bytes of data is the data with zeros after it (R182). -/
theorem writeBuffer_of_fits {data : List Byte} (h : data.length ≤ pageSize) :
    writeBuffer data = opcWritecube :: pageAddr :: (data ++ List.replicate (pageSize - data.length) 0x00#8) := by
  rw [writeBuffer, List.take_of_length_le h]

/-- `writePage` is one of two things (R182). -/
theorem writePage_cases (b : TransferBuffer) (data : List Byte) (accepted : Nat) :
    (pageSize < data.length ∧ writePage b data accepted = ⟨b, none, .error .sizeExceeded⟩) ∨
    (data.length ≤ pageSize ∧ writePage b data accepted =
      ⟨TransferBuffer.filled data, some ⟨Config.slaveAddr, writeBuffer data⟩,
        if accepted = hostBuf then .ok () else .error .busTransferFailed⟩) := by
  by_cases h : data.length > pageSize
  · exact .inl ⟨h, if_pos h⟩
  · exact .inr ⟨Nat.le_of_not_lt h, if_neg h⟩

/-- `readPage` issues its read exactly if both address bytes were accepted, and succeeds exactly if 32 bytes came back
(R183). -/
theorem readPage_cases (b : TransferBuffer) (n accepted : Nat) (received : List Byte) :
    (accepted = 2 ∧ received.length = txLen ∧ readPage b n accepted received =
      ⟨b.addressed, ⟨Config.slaveAddr, readAddressBytes⟩, true, .ok (received.take n)⟩) ∨
    (¬ (accepted = 2 ∧ received.length = txLen) ∧ readPage b n accepted received =
      ⟨b.addressed, ⟨Config.slaveAddr, readAddressBytes⟩, accepted = 2, .error .busTransferFailed⟩) := by
  unfold readPage
  by_cases h2 : accepted = 2 <;> by_cases h32 : received.length = txLen <;> simp [h2, h32]

/-- A device-file write within a session is one of three things (R184, R186). -/
theorem writeIn_cases {d : Driver} {b : TransferBuffer} (hs : d.session = .held b) (user : List Byte)
    (copied accepted : Nat) :
    (pageSize < user.length ∧ d.writeIn b user copied accepted = .silent d (.error .sizeExceeded)) ∨
    (user.length ≤ pageSize ∧ copied < user.length ∧
      d.writeIn b user copied accepted = .silent d (.error .userCopyFailed)) ∨
    (user.length ≤ pageSize ∧ user.length ≤ copied ∧ d.writeIn b user copied accepted =
      ⟨{ d with session := .held (.filled user) }, [.write ⟨Config.slaveAddr, writeBuffer user⟩], [],
        if accepted = hostBuf then .ok user.length else .error .busTransferFailed⟩) := by
  unfold Driver.writeIn
  rcases writePage_cases b user accepted with ⟨hn, e⟩ | ⟨hn, e⟩
  · refine .inl ⟨hn, ?_⟩
    rw [if_neg (fun h => Nat.not_le.2 hn h.1), e]
    simp [Reply.silent, ← hs, Except.map]
  · by_cases hk : copied < user.length
    · exact .inr (.inl ⟨hn, hk, if_pos ⟨hn, hk⟩⟩)
    · refine .inr (.inr ⟨hn, Nat.le_of_not_lt hk, ?_⟩)
      rw [if_neg (fun h => hk h.2), e]
      by_cases ha : accepted = hostBuf <;> simp [ha, Except.map]

/-- A device-file read within a session is one of four things (R184, R186). -/
theorem readIn_cases {d : Driver} {b : TransferBuffer} (n accepted : Nat) (received : List Byte) (copied : Nat) :
    (pageSize < n ∧ d.readIn b n accepted received copied = .silent d (.error .sizeExceeded)) ∨
    (n ≤ pageSize ∧ ∃ output result, d.readIn b n accepted received copied =
      ⟨{ d with session := .held b.addressed },
        .write ⟨Config.slaveAddr, readAddressBytes⟩ :: (if accepted = 2 then [.read Config.slaveAddr txLen] else []),
        output, result⟩ ∧
      ((¬ (accepted = 2 ∧ received.length = txLen) ∧ output = [] ∧ result = .error .busTransferFailed) ∨
       (accepted = 2 ∧ received.length = txLen ∧ copied < n ∧ output = (received.take n).take copied ∧
        result = .error .userCopyFailed) ∨
       (accepted = 2 ∧ received.length = txLen ∧ n ≤ copied ∧ output = received.take n ∧ result = .ok n))) := by
  unfold Driver.readIn
  by_cases hn : n > pageSize
  · exact .inl ⟨hn, if_pos hn⟩
  · refine .inr ⟨Nat.le_of_not_lt hn, (deliver n copied (readPage b n accepted received).result).1,
      (deliver n copied (readPage b n accepted received).result).2, ?_, ?_⟩
    · rw [if_neg hn]
      simp [readPage]
    · rcases readPage_cases b n accepted received with ⟨h2, h32, e⟩ | ⟨h, e⟩
      · by_cases hk : copied < n
        · exact .inr (.inl ⟨h2, h32, hk, by simp [e, deliver, hk], by simp [e, deliver, hk]⟩)
        · exact .inr (.inr ⟨h2, h32, Nat.le_of_not_lt hk, by simp [e, deliver, hk], by simp [e, deliver, hk]⟩)
      · exact .inl ⟨h, by simp [e, deliver], by simp [e, deliver]⟩

/-- What a call can be: an open of a free or a held file, a close, or a write or a read within a session (R184, R185). -/
theorem call_cases {d : Driver} {c : FileCall} {r : Reply} (h : d.call c = some r) :
    (c = .openFile ∧ d.session = .free ∧
      r = .silent ⟨.held (TransferBuffer.fresh d.opened), d.opened + 1⟩ (.ok 0)) ∨
    (c = .openFile ∧ (∃ b, d.session = .held b) ∧ r = .silent d (.error .sessionBusy)) ∨
    (c = .closeFile ∧ (∃ b, d.session = .held b) ∧ r = .silent { d with session := .free } (.ok 0)) ∨
    (∃ b user copied accepted, c = .writeFile user copied accepted ∧ d.session = .held b ∧
      r = d.writeIn b user copied accepted) ∨
    (∃ b n accepted received copied, c = .readFile n accepted received copied ∧ d.session = .held b ∧
      r = d.readIn b n accepted received copied) := by
  obtain ⟨s, k⟩ := d
  cases c with
  | openFile => cases s <;> cases h <;> simp [Driver.openFile, Session.guard, SessionGuard.acquire]
  | closeFile =>
    cases s with
    | free => cases h
    | held b => cases h; simp
  | writeFile user copied accepted =>
    cases s with
    | free => cases h
    | held b => cases h; simp
  | readFile n accepted received copied =>
    cases s with
    | free => cases h
    | held b => cases h; simp

/-- An error is returned as a negative size, whatever its number is (R186). -/
theorem returnValue_error (e : HostError) : returnValue (.error e) < 0 := by
  simp only [returnValue]; omega

@[simp] theorem returnValue_ok (n : Nat) : returnValue (.ok n) = n := rfl

end Sys2Proof.Machine.HostSide
end

