-- ==== Sys2Proof/Laws/PerInstr.lean ====
section
/-! SUPPORT. The statements made of every instruction, one lemma per constructor. -/

namespace Sys2Proof.Laws

open Sys2Proof.Machine

/-- A well-formed instruction encodes to a message of exactly `RX_LEN` bytes that begins with its tag (R81, R86). -/
def EncodeLength.Statement (i : Instr) : Prop :=
  i.wellFormed = true → (encode i).length = rxLen ∧ tagOf (encode i) = i.tag

/-- A message whose body is the 33 bytes after the tag has `RX_LEN` bytes. -/
theorem EncodeLength.of_rest {rest : List Byte} (tag : Byte) (h : restFits rest = true) :
    (tag :: rest).length = rxLen ∧ tagOf (tag :: rest) = tag := by
  have h' : rest.length = 33 := by simpa [restFits] using h
  exact ⟨by simp [h'], rfl⟩

theorem EncodeLength.writecube (page : Byte) (frame : Frame) (pad : List Byte) :
    EncodeLength.Statement (.writecube page frame pad) := by
  intro h
  have h' : pad.length = 12 := by simpa [Instr.wellFormed, padFits] using h
  exact ⟨by simp [encode, Instr.body, bytesOfFrame, bytesOfWord, h'], rfl⟩

theorem EncodeLength.rdpgaddr (rest : List Byte) : EncodeLength.Statement (.rdpgaddr rest) :=
  fun h => EncodeLength.of_rest _ h
theorem EncodeLength.unknown80 (t : BitVec 7) (rest : List Byte) : EncodeLength.Statement (.unknown80 t rest) :=
  fun h => EncodeLength.of_rest _ h
theorem EncodeLength.unknown40 (t : BitVec 6) (rest : List Byte) : EncodeLength.Statement (.unknown40 t rest) :=
  fun h => EncodeLength.of_rest _ h
theorem EncodeLength.unknown20 (t : BitVec 5) (rest : List Byte) : EncodeLength.Statement (.unknown20 t rest) :=
  fun h => EncodeLength.of_rest _ h
theorem EncodeLength.unknown10 (t : BitVec 4) (rest : List Byte) : EncodeLength.Statement (.unknown10 t rest) :=
  fun h => EncodeLength.of_rest _ h
theorem EncodeLength.unknown08 (t : BitVec 3) (rest : List Byte) : EncodeLength.Statement (.unknown08 t rest) :=
  fun h => EncodeLength.of_rest _ h
theorem EncodeLength.unknown04 (t : BitVec 2) (rest : List Byte) : EncodeLength.Statement (.unknown04 t rest) :=
  fun h => EncodeLength.of_rest _ h
theorem EncodeLength.unknown02 (t : BitVec 1) (rest : List Byte) : EncodeLength.Statement (.unknown02 t rest) :=
  fun h => EncodeLength.of_rest _ h

end Sys2Proof.Laws
end

