-- ==== Sys2Proof/Laws/Step.lean ====
section
/-! SUPPORT. What the service of an event, a poll and a step can do, said once. -/

namespace Sys2Proof.Machine

/-! ### The interface (R90, R152) -/

/-- A receive that succeeds delivers exactly `RX_LEN` bytes (R152). -/
theorem receiveWrite_ok_length {sent b : List Byte} {intact : Bool} (h : receiveWrite sent intact = .ok b) :
    b.length = rxLen := by
  unfold receiveWrite at h
  split at h
  · cases h
  split at h
  · cases h; assumption
  split at h
  · cases h
  split at h
  · cases h
  · cases h; simp only [List.length_take]; omega

/-- An event that carries a message carries exactly `RX_LEN` bytes (R152). -/
theorem eventOf_ok_length {t : Transaction} {b : List Byte} (h : eventOf t = .writeAddressed (.ok b)) :
    b.length = rxLen := by
  cases t with
  | quiet => cases h
  | write sent intact => exact receiveWrite_ok_length (Event.writeAddressed.inj h)
  | read completed => cases h

/-! ### The service of an event (R152 to R155) -/

/-- A successful receive is decoded; WRITECUBE applies, every other tag is only diagnosed (R130, R154). -/
theorem service_ok (b : List Byte) (s : State) (hl : b.length = rxLen) :
    service (.writeAddressed (.ok b)) s =
      .next (if tagOf b = opcWritecube then (s.fillRxbuf b).apply (payloadOf b)
        else (s.fillRxbuf b).unrecognised (tagOf b)) :=
  commandDecoder_fillRxbuf b s hl

/-- The forms of an event and what the service of each answers. -/
theorem service_cases (t : Transaction) (s : State) :
    (eventOf t = .idle ∧ service (eventOf t) s = .next s) ∨
    (eventOf t = .writeAddressed .fail ∧
      service (eventOf t) s = .next ((s.fillRxbuf (rxResidue s.polls)).raise .rxFail)) ∨
    (∃ b, eventOf t = .writeAddressed (.ok b) ∧ b.length = rxLen ∧ tagOf b = opcWritecube ∧
      service (eventOf t) s = .next ((s.fillRxbuf b).applyFrame (frameOfBytes (payloadOf b)))) ∨
    (∃ b, eventOf t = .writeAddressed (.ok b) ∧ b.length = rxLen ∧ tagOf b ≠ opcWritecube ∧
      service (eventOf t) s = .next ((s.fillRxbuf b).raise (.unknownOpcode (tagOf b)))) ∨
    (∃ r, eventOf t = .readAddressed r ∧
      service (eventOf t) s = .next ((s.transmit (s.rxbuf.slice 0 txLen)).raise (.readServiced r))) := by
  rcases he : eventOf t with _ | r | r
  · exact .inl ⟨rfl, rfl⟩
  · cases r with
    | ok b =>
      have hl := eventOf_ok_length he
      by_cases ht : tagOf b = opcWritecube
      · exact .inr (.inr (.inl ⟨b, rfl, hl, ht, by rw [service_ok b s hl, if_pos ht]; rfl⟩))
      · exact .inr (.inr (.inr (.inl ⟨b, rfl, hl, ht, by rw [service_ok b s hl, if_neg ht]; rfl⟩)))
    | fail => exact .inr (.inl ⟨rfl, rfl⟩)
  · exact .inr (.inr (.inr (.inr ⟨r, rfl, rfl⟩)))

/-- What the service of an event leaves alone, and that it always answers (R153 to R155, R161). -/
theorem service_next (t : Transaction) (s : State) :
    ∃ u, service (eventOf t) s = .next u ∧ u.active = s.active ∧ u.layer = s.layer ∧ u.phase = s.phase ∧
      u.latch = s.latch ∧ u.emitTrace = s.emitTrace ∧ u.pending = s.pending ∧ u.polls = s.polls := by
  rcases service_cases t s with ⟨-, h⟩ | ⟨-, h⟩ | ⟨b, -, -, -, h⟩ | ⟨b, -, -, -, h⟩ | ⟨r, -, h⟩ <;>
    exact ⟨_, h, rfl, rfl, rfl, rfl, rfl, rfl, rfl⟩

/-! ### The steps (R151 to R158) -/

/-- POLL answers, takes one input and leaves the display side alone (R152). -/
theorem pollStep_next (s : State) :
    ∃ u, pollStep s = .next u ∧ u.active = s.active ∧ u.layer = s.layer ∧ u.phase = .clear ∧ u.latch = s.latch ∧
      u.emitTrace = s.emitTrace ∧ u.pending = s.pending.tail ∧ u.polls = s.polls + 1 := by
  obtain ⟨u, hu, h1, h2, h3, h4, h5, h6, h7⟩ := service_next (s.input 0) s.consumeInput
  refine ⟨u.goto .clear, ?_, h1, h2, rfl, h4, h5, h6, h7⟩
  simp [pollStep, State.nextEvent, hu, andThen]

/-- One step from each phase. -/
theorem step_emit {s : State} (h : s.phase = .emit) : step s = .next (emitStep s) := by simp [step, h]
theorem step_poll {s : State} (h : s.phase = .poll) : step s = pollStep s := by simp [step, h]
theorem step_clear {s : State} (h : s.phase = .clear) : step s = .next (clearStep s) := by simp [step, h]
theorem step_advance {s : State} (h : s.phase = .advance) : step s = .next (advanceStep s) := by simp [step, h]
theorem step_swapchk {s : State} (h : s.phase = .swapchk) : step s = .next (swapchkStep s) := by simp [step, h]

/-- What a step can do. -/
theorem step_cases {s t : State} (h : step s = .next t) :
    (s.phase = .emit ∧ t = emitStep s) ∨ (s.phase = .poll ∧ pollStep s = .next t) ∨
    (s.phase = .clear ∧ t = clearStep s) ∨ (s.phase = .advance ∧ t = advanceStep s) ∨
    (s.phase = .swapchk ∧ t = swapchkStep s) := by
  rcases hp : s.phase with _ | _ | _ | _ | _
  · rw [step_emit hp] at h; cases h; exact .inl ⟨rfl, rfl⟩
  · rw [step_poll hp] at h; exact .inr (.inl ⟨rfl, h⟩)
  · rw [step_clear hp] at h; cases h; exact .inr (.inr (.inl ⟨rfl, rfl⟩))
  · rw [step_advance hp] at h; cases h; exact .inr (.inr (.inr (.inl ⟨rfl, rfl⟩)))
  · rw [step_swapchk hp] at h; cases h; exact .inr (.inr (.inr (.inr ⟨rfl, rfl⟩)))

/-! ### Runs -/

/-- The first step of a run, taken apart. -/
theorem run_succ {s t : State} (n : Nat) (h : step s = .next t) :
    runSteps (n + 1) s = runSteps n t := by
  have h' : Sys2Proof.core.step s = .next t := h
  simp only [runSteps, Host.Core.run, h']
  rfl

/-- A run of `m + n` steps is a run of `m` steps and one of `n` steps from where it ends. -/
theorem run_add {s t : State} (m n : Nat) (h : runSteps m s = .next t) :
    runSteps (m + n) s = runSteps n t := by
  induction m generalizing s with
  | zero => cases h; rw [Nat.zero_add]
  | succ m ih =>
    rw [Nat.succ_add]
    rcases hs : step s with u | r | r
    · rw [run_succ m hs] at h; rw [run_succ (m + n) hs]; exact ih h
    · exact nomatch r
    · have h' : Sys2Proof.core.step s = .refused r := hs
      simp only [runSteps, Host.Core.run, h'] at h
      cases h

/-- An iteration: where the POLL after EMIT answers `u`, the five steps end in CLEAR, ADVANCE and SWAPCHK of `u` (R150). -/
theorem run_iteration {s u : State} (h : s.phase = .emit) (hu : pollStep (emitStep s) = .next u) :
    runSteps 5 s = .next (swapchkStep (advanceStep (clearStep u))) := by
  obtain ⟨v, hv, -, -, hp, -⟩ := pollStep_next (emitStep s)
  obtain rfl : v = u := by rw [hv] at hu; exact Host.Outcome.next.inj hu
  rw [run_succ 4 (step_emit h), run_succ 3 ((step_poll rfl).trans hv), run_succ 2 (step_clear hp),
    run_succ 1 (step_advance rfl), run_succ 0 (step_swapchk rfl)]
  rfl

end Sys2Proof.Machine
end

