-- ==== Sys2Proof/Tests/Slice0.lean ====
section
/-! SUPPORT. The model's own tests. Expected values come from spec/95_test_vectors.md (the vector is named in each
comment) or are worked out by hand from the opcode map of spec/30_encoding.md R86. The witnesses at the end show, for each
statement with hypotheses, a concrete case that meets them. -/

namespace Sys2Proof.Tests

open Sys2Proof.Machine

/-! ### Helpers -/

/-- A small state: reset, but for the phase, the layer and what the bus will deliver. -/
def scene (p : Phase) (l : Fin 5) (bus : List ScriptLine) : State :=
  { State.reset with phase := p, layer := l, pending := bus.map ScriptLine.transaction }

/-- The state after one step. -/
def stepped (s : State) : Option State :=
  match step s with
  | .next t => some t
  | .fault _ => none
  | .refused _ => none

/-- The frame bytes of F7. -/
def f7Bytes : List Byte :=
  [0x01#8, 0x02#8, 0x03#8, 0x04#8, 0x05#8, 0x06#8, 0x07#8, 0x08#8, 0x09#8, 0x0A#8, 0x0B#8, 0x0C#8, 0x0D#8, 0x0E#8, 0x0F#8,
    0x10#8, 0x11#8, 0x12#8, 0x13#8, 0x14#8]

/-- The frame X of F7. -/
def frameX : Frame := ⟨0x04030201#32, 0x08070605#32, 0x0C0B0A09#32, 0x100F0E0D#32, 0x14131211#32⟩

/-- A message: tag, page byte, the F7 frame bytes, twelve bytes of padding. -/
def f7Message (tag page padding : Byte) : List Byte := tag :: page :: (f7Bytes ++ List.replicate 12 padding)

def zeros (n : Nat) : List Byte := List.replicate n 0x00#8

/-! ### WellFormed: one ill-formed term for each check, refused -/

theorem test_illformed_pad_eleven : (Instr.writecube 0x00#8 frameX (zeros 11)).wellFormed = false := by decide
theorem test_illformed_pad_thirteen : (Instr.writecube 0x00#8 frameX (zeros 13)).wellFormed = false := by decide
theorem test_illformed_rdpgaddr : (Instr.rdpgaddr (zeros 32)).wellFormed = false := by decide
theorem test_illformed_unknown80 : (Instr.unknown80 1#7 (zeros 34)).wellFormed = false := by decide
theorem test_illformed_unknown40 : (Instr.unknown40 1#6 (zeros 32)).wellFormed = false := by decide
theorem test_illformed_unknown20 : (Instr.unknown20 1#5 (zeros 32)).wellFormed = false := by decide
theorem test_illformed_unknown10 : (Instr.unknown10 1#4 (zeros 32)).wellFormed = false := by decide
theorem test_illformed_unknown08 : (Instr.unknown08 1#3 (zeros 32)).wellFormed = false := by decide
theorem test_illformed_unknown04 : (Instr.unknown04 1#2 (zeros 32)).wellFormed = false := by decide
theorem test_illformed_unknown02 : (Instr.unknown02 1#1 (zeros 32)).wellFormed = false := by decide
theorem test_wellformed_writecube : (Instr.writecube 0x7F#8 frameX (zeros 12)).wellFormed = true := by decide
theorem test_wellformed_rdpgaddr : (Instr.rdpgaddr (zeros 33)).wellFormed = true := by decide

/-! ### Decoding: a message of each row, its tag written out from the encoding column of the table -/

/-- C2 with the padding of C3: `00000001`. -/
theorem test_decode_writecube : decode (f7Message 0b00000001#8 0x7F#8 0xFF#8) =
    .ok (.writecube 0x7F#8 frameX (List.replicate 12 0xFF#8)) := by decide
/-- `00000000`. -/
theorem test_decode_rdpgaddr : decode (0b00000000#8 :: zeros 33) = .ok (.rdpgaddr (zeros 33)) := by decide
/-- `1ttttttt` with `t = 1111111` (C6, tag FF). -/
theorem test_decode_unknown80 : decode (0b11111111#8 :: zeros 33) = .ok (.unknown80 0b1111111#7 (zeros 33)) := by decide
/-- `01tttttt` with `t = 111110` (tag 7E, the example of R130). -/
theorem test_decode_unknown40 : decode (0b01111110#8 :: zeros 33) = .ok (.unknown40 0b111110#6 (zeros 33)) := by decide
/-- `001ttttt` with `t = 00001`. -/
theorem test_decode_unknown20 : decode (0b00100001#8 :: zeros 33) = .ok (.unknown20 0b00001#5 (zeros 33)) := by decide
/-- `0001tttt` with `t = 1010`. -/
theorem test_decode_unknown10 : decode (0b00011010#8 :: zeros 33) = .ok (.unknown10 0b1010#4 (zeros 33)) := by decide
/-- `00001ttt` with `t = 100`. -/
theorem test_decode_unknown08 : decode (0b00001100#8 :: zeros 33) = .ok (.unknown08 0b100#3 (zeros 33)) := by decide
/-- `000001tt` with `t = 01`. -/
theorem test_decode_unknown04 : decode (0b00000101#8 :: zeros 33) = .ok (.unknown04 0b01#2 (zeros 33)) := by decide
/-- `0000001t` with `t = 1`. -/
theorem test_decode_unknown02 : decode (0b00000011#8 :: zeros 33) = .ok (.unknown02 0b1#1 (zeros 33)) := by decide
/-- A 2-byte RADDR message is no instruction (R82, R90). -/
theorem test_decode_raddr : decode [0x00#8, 0x00#8] = .error (.wrongLength 2) := by decide
/-- A word of the table is the tag byte, every other byte 0. -/
theorem test_table_word : decodeTableWord 8 0x81 = some (.unknown80 1#7 (zeros 33)) := by decide
/-- V9: the encoding of the default pattern, its layer 4 bytes at 18..21. -/
theorem test_encode_v9 : sliceBytes (encode (.writecube 0x00#8 defaultPattern (zeros 12))) 16 8 =
    [0x00#8, 0xB8#8, 0x10#8, 0x00#8, 0x00#8, 0x78#8, 0x00#8, 0x00#8] := by decide

/-! ### Operand assembly -/

/-- F4. -/
theorem test_le32_f4 : le32 0x01#8 0x02#8 0x03#8 0x04#8 = 0x04030201#32 := by decide
/-- F5: no sign extension. -/
theorem test_le32_f5 : le32 0x80#8 0x00#8 0x00#8 0x00#8 = 0x00000080#32 := by decide
/-- F6. -/
theorem test_le32_f6 : le32 0x00#8 0x00#8 0x00#8 0x80#8 = 0x80000000#32 := by decide

/-! ### Frame Store -/

/-- M1. -/
theorem test_swap_m1 : ({ State.reset with staging := frameX, swapRequested := true }.maybeSwap 0) =
    { State.reset with active := frameX, staging := defaultPattern } := by decide
/-- M2 with layer 3. -/
theorem test_swap_m2 : ({ State.reset with staging := frameX, swapRequested := true }.maybeSwap 3).active =
    defaultPattern := by decide
/-- L2: never the word of `staging`. -/
theorem test_read_layer_l2 : { State.reset with staging := frameX }.readLayer 2 = 0xD8000004#32 := by decide

/-! ### One step -/

/-- Iteration 0 emits `0xF0000001` (R151). -/
theorem test_emit_reset : (stepped State.reset).map (fun t => (t.emitTrace, t.latch, t.phase)) =
    some ([0xF0000001#32], 0xF0000001#32, .poll) := by decide
/-- I3: layer 4 emits `0x78000010`. -/
theorem test_emit_layer_four : (stepped (scene .emit 4 [])).map (fun t => t.emitTrace) = some [0x78000010#32] := by decide
/-- C1. -/
theorem test_poll_c1 : (stepped (scene .poll 1 [.writecube frameX])).map
    (fun t => (t.active, t.staging, t.swapRequested, t.diagTrace)) = some (defaultPattern, frameX, true, []) := by decide
/-- C8: a short host write clears the other layers. -/
theorem test_poll_c8 : (stepped (scene .poll 1 [.writeraw (HostSide.writeBuffer [0xAA#8, 0xBB#8, 0xCC#8, 0xDD#8])])).map
    (fun t => (t.staging, t.swapRequested)) = some (⟨0xDDCCBBAA#32, 0#32, 0#32, 0#32, 0#32⟩, true) := by decide
/-- C4. -/
theorem test_poll_c4 : (stepped (scene .poll 1 [.writeraw (f7Message 0x00#8 0x00#8 0x00#8)])).map
    (fun t => (t.swapRequested, t.diagTrace)) = some (false, [.unknownOpcode 0x00#8]) := by decide
/-- C5. -/
theorem test_poll_c5 : (stepped (scene .poll 1 [.writeraw (f7Message 0x02#8 0x00#8 0x00#8)])).map
    (fun t => (t.swapRequested, t.diagTrace)) = some (false, [.unknownOpcode 0x02#8]) := by decide
/-- C7: bit 7 is part of the tag. -/
theorem test_poll_c7 : (stepped (scene .poll 1 [.writeraw (f7Message 0x81#8 0x00#8 0x00#8)])).map
    (fun t => (t.swapRequested, t.diagTrace)) = some (false, [.unknownOpcode 0x81#8]) := by decide
/-- Tag 7E (R130), of the row `01tttttt`. -/
theorem test_poll_tag_7e : (stepped (scene .poll 0 [.writeraw (f7Message 0x7E#8 0x00#8 0x00#8)])).map
    (fun t => t.diagTrace) = some [.unknownOpcode 0x7E#8] := by decide
theorem test_poll_tag_3f : (stepped (scene .poll 0 [.writeraw (0x3F#8 :: zeros 33)])).map (fun t => t.diagTrace) =
    some [.unknownOpcode 0x3F#8] := by decide
theorem test_poll_tag_10 : (stepped (scene .poll 0 [.writeraw (0x10#8 :: zeros 33)])).map (fun t => t.diagTrace) =
    some [.unknownOpcode 0x10#8] := by decide
theorem test_poll_tag_0f : (stepped (scene .poll 0 [.writeraw (0x0F#8 :: zeros 33)])).map (fun t => t.diagTrace) =
    some [.unknownOpcode 0x0F#8] := by decide
theorem test_poll_tag_06 : (stepped (scene .poll 0 [.writeraw (0x06#8 :: zeros 33)])).map (fun t => t.diagTrace) =
    some [.unknownOpcode 0x06#8] := by decide
/-- C11, P3 iteration 3: a short write that begins with `01` writes nothing. -/
theorem test_poll_c11 : (stepped (scene .poll 3 [.writeshort [0x01#8, 0x00#8, 0xAA#8]])).map
    (fun t => (t.staging, t.swapRequested, t.diagTrace)) = some (stagingReset, false, [.rxFail]) := by decide
/-- P3 iteration 2. -/
theorem test_poll_read : (stepped (scene .poll 2 [.read])).map (fun t => (t.transmitTrace, t.diagTrace)) =
    some ([zeros 32], [.readServiced .ok]) := by decide
/-- P3 iteration 4: a failed read service is answered and logged. -/
theorem test_poll_readfail : (stepped (scene .poll 4 [.readfail])).map (fun t => (t.transmitTrace, t.diagTrace)) =
    some ([zeros 32], [.readServiced .fail]) := by decide
/-- After CLEAR `rxbuf` is all zero (R156). -/
theorem test_clear : (stepped ((scene .clear 1 []).fillRxbuf (f7Message 0x01#8 0x00#8 0x00#8))).map (fun t => t.rxbuf) =
    some Memory.zeroed := by decide
/-- ADVANCE alone: 4 to 0. -/
theorem test_advance_wraps : (stepped (scene .advance 4 [])).map (fun t => t.layer) = some 0 := by decide
/-- The exchange of I4, with the layer that ADVANCE has made 0. -/
theorem test_swapchk_i4 : (stepped { scene .swapchk 0 [] with staging := frameX, swapRequested := true }).map
    (fun t => (t.active, t.staging, t.swapRequested)) = some (frameX, defaultPattern, false) := by decide
/-- I5: no exchange off the swap point. -/
theorem test_swapchk_i5 : (stepped { scene .swapchk 3 [] with staging := frameX, swapRequested := true }).map
    (fun t => (t.active, t.swapRequested)) = some (defaultPattern, true) := by decide
/-- A placed word of the table is run by the next step. -/
theorem test_fetch_word : (stepped (State.reset.withFetchWord 8 0x01)).map (fun t => (t.staging, t.swapRequested)) =
    some (⟨0#32, 0#32, 0#32, 0#32, 0#32⟩, true) := by decide
/-- I6 as one transition: applied and exchanged in one iteration. -/
theorem test_iterate_i6 : (iterate (.writeAddressed (.ok (f7Message 0x01#8 0x00#8 0x00#8))) (scene .emit 4 [])).active =
    frameX := by decide
/-- The codes of R201. -/
theorem test_diag_codes : [Diag.unknownOpcode 0x02#8, .rxFail, .readServiced .fail].map Diag.code = [1, 2, 3] := by decide

/-! ### The host side -/

/-- H1, V9: the message of `writePage` of the default pattern. -/
theorem test_host_h1 : HostSide.writeBuffer (bytesOfFrame defaultPattern) =
    [0x01#8, 0x00#8, 0x01#8, 0x00#8, 0x00#8, 0xF0#8, 0x02#8, 0x00#8, 0x00#8, 0xE8#8, 0x04#8, 0x00#8, 0x00#8, 0xD8#8, 0x08#8,
      0x00#8, 0x00#8, 0xB8#8, 0x10#8, 0x00#8, 0x00#8, 0x78#8] ++ zeros 12 := by decide

/-- A Transfer Buffer whose payload is all zero. -/
def plainBuffer : HostSide.TransferBuffer := .filled []

/-- A driver with an open session that holds `plainBuffer`. -/
def openDriver : HostSide.Driver := ⟨.held plainBuffer, 1⟩

/-- Whether a result is this error. -/
def isError (e : HostError) : Except HostError Nat → Bool
  | .error e' => e' = e
  | .ok _ => false

/-- H2: four bytes, the rest of the 34 zero; success if 34 are accepted. -/
theorem test_host_h2 : (openDriver.writeIn plainBuffer [0xAA#8, 0xBB#8, 0xCC#8, 0xDD#8] 4 34).bus =
    [.write ⟨Config.slaveAddr, [0x01#8, 0x00#8, 0xAA#8, 0xBB#8, 0xCC#8, 0xDD#8] ++ zeros 28⟩] ∧
    (openDriver.writeIn plainBuffer [0xAA#8, 0xBB#8, 0xCC#8, 0xDD#8] 4 34).result.toOption = some 4 := ⟨rfl, rfl⟩
/-- H3: 33 bytes accepted. -/
theorem test_host_h3 : isError .busTransferFailed (openDriver.writeIn plainBuffer [0xAA#8] 1 33).result ∧
    (openDriver.writeIn plainBuffer [0xAA#8] 1 33).bus.length = 1 := by decide
/-- H4: 33 bytes of data. -/
theorem test_host_h4 : isError .sizeExceeded (openDriver.writeIn plainBuffer (zeros 33) 33 34).result ∧
    (openDriver.writeIn plainBuffer (zeros 33) 33 34).bus = [] := ⟨rfl, rfl⟩
/-- H5: all 32 bytes; the address write and one read on the bus. -/
theorem test_host_h5 : (openDriver.readIn plainBuffer 32 2 (zeros 32) 32).output = zeros 32 ∧
    (openDriver.readIn plainBuffer 32 2 (zeros 32) 32).bus =
      [.write ⟨Config.slaveAddr, [0x00#8, 0x00#8]⟩, .read Config.slaveAddr 32] := ⟨rfl, rfl⟩
/-- H6: the read returns 31 bytes. -/
theorem test_host_h6 : isError .busTransferFailed (openDriver.readIn plainBuffer 32 2 (zeros 31) 32).result ∧
    (openDriver.readIn plainBuffer 32 2 (zeros 31) 32).output = [] := by decide
/-- H6b: one address byte accepted; no read is issued. -/
theorem test_host_h6b : isError .busTransferFailed (openDriver.readIn plainBuffer 32 1 [] 32).result ∧
    (openDriver.readIn plainBuffer 32 1 [] 32).bus.length = 1 := by decide
/-- H7: open, open, close, open. -/
theorem test_host_h7 : HostSide.Driver.start.openFile.result.toOption = some 0 ∧
    isError .sessionBusy HostSide.Driver.start.openFile.driver.openFile.result ∧
    (HostSide.Driver.start.openFile.driver.call .closeFile).map (·.driver.openFile.result.toOption) = some (some 0) :=
  ⟨rfl, rfl, rfl⟩
/-- H8: the first 4 of the 32 bytes. -/
theorem test_host_h8 : (openDriver.readIn plainBuffer 4 2 (zeros 32) 4).output = zeros 4 ∧
    (openDriver.readIn plainBuffer 4 2 (zeros 32) 4).result.toOption = some 4 := ⟨rfl, rfl⟩
/-- R181: the zero padding leaves nothing of an earlier payload. -/
theorem test_buffer_overwritten :
    (HostSide.writePage (.filled (List.replicate 32 0xFF#8)) [0xAA#8] 34).buffer.bytes =
      [0x01#8, 0x00#8, 0xAA#8] ++ zeros 31 := by decide

/-! ### Witnesses: the hypotheses of each statement can be met -/

/-- A state with the given layer, at POLL, whose next transaction writes X and the four after it are quiet. -/
def writeScene (l : Fin 5) : State := scene .poll l [.writecube frameX, .idle, .idle, .idle, .idle]

theorem witness_tag_clauses : (f7Message 0x01#8 0x00#8 0x00#8).length = rxLen ∧
    tagOf (f7Message 0x01#8 0x00#8 0x00#8) = 0x01#8 ∧ (f7Message 0x00#8 0x00#8 0x00#8).length = rxLen ∧
    tagOf (f7Message 0x00#8 0x00#8 0x00#8) ≠ 0x01#8 ∧ tagOf (f7Message 0x02#8 0x00#8 0x00#8) ≠ 0x01#8 := by decide
theorem witness_other_length : ([0x00#8, 0x00#8] : List Byte).length ≠ rxLen := by decide
theorem witness_step_runs_decoded : (writeScene 1).phase = .poll ∧
    (writeScene 1).input 0 = .write (writecubeMessage frameX) true ∧
    decode (writecubeMessage frameX) = .ok (.writecube 0x00#8 frameX (zeros 12)) := by decide
theorem witness_placed_word : decodeTableWord 8 0x00 = some (.rdpgaddr (zeros 33)) := by decide
theorem witness_receive_lengths : (zeros 34).length = 34 ∧ (zeros 33).length < 34 ∧ 34 < (zeros 35).length := by decide
theorem witness_idle : (scene .poll 0 [.idle]).phase = .poll ∧ (scene .poll 0 [.idle]).nextEvent = .idle := by decide
theorem witness_failed_receive : (scene .poll 0 [.writeshort (zeros 33)]).phase = .poll ∧
    (scene .poll 0 [.writeshort (zeros 33)]).nextEvent = .writeAddressed .fail := by decide
theorem witness_received : (writeScene 0).phase = .poll ∧
    (writeScene 0).nextEvent = .writeAddressed (.ok (writecubeMessage frameX)) ∧
    tagOf (writecubeMessage frameX) = 0x01#8 := by decide
theorem witness_unrecognised : (scene .poll 0 [.writeraw (zeros 34)]).phase = .poll ∧
    (scene .poll 0 [.writeraw (zeros 34)]).nextEvent = .writeAddressed (.ok (zeros 34)) ∧
    tagOf (zeros 34) ≠ 0x01#8 := by decide
theorem witness_page_and_padding : (scene .poll 0 []).phase = .poll ∧ (f7Message 0x01#8 0x00#8 0x00#8).length = 34 ∧
    (f7Message 0x01#8 0x7F#8 0xFF#8).length = 34 ∧
    tagOf (f7Message 0x01#8 0x00#8 0x00#8) = tagOf (f7Message 0x01#8 0x7F#8 0xFF#8) ∧
    payloadOf (f7Message 0x01#8 0x00#8 0x00#8) = payloadOf (f7Message 0x01#8 0x7F#8 0xFF#8) := by decide
theorem witness_read : (scene .poll 0 [.read]).phase = .poll ∧ (scene .poll 0 [.read]).nextEvent = .readAddressed .ok ∧
    (scene .poll 0 [.readfail]).nextEvent = .readAddressed .fail := by decide
theorem witness_phases : (scene .emit 0 []).phase = .emit ∧ (scene .clear 0 []).phase = .clear ∧
    (scene .advance 4 []).phase = .advance ∧ (scene .swapchk 0 []).phase = .swapchk := by decide
theorem witness_layer_kept : ∃ t, step (scene .swapchk 0 []) = .next t ∧ (scene .swapchk 0 []).phase ≠ .advance :=
  ⟨_, rfl, by decide⟩
theorem witness_active_changes : ∃ s t, step s = .next t ∧ t.active ≠ s.active :=
  ⟨{ scene .swapchk 0 [] with staging := frameX, swapRequested := true }, _, rfl, by decide⟩
theorem witness_staging_written : (∃ t, step (writeScene 0) = .next t) ∧
    (∃ t, step { scene .swapchk 0 [] with swapRequested := true } = .next t) ∧ ∃ t, step (scene .clear 0 []) = .next t :=
  ⟨⟨_, rfl⟩, ⟨_, rfl⟩, ⟨_, rfl⟩⟩
theorem witness_invariant : ∃ s t : State, s.Inv ∧ step s = .next t :=
  ⟨scene .emit 2 [], _,
    ⟨rfl, fun _ => rfl, fun _ => rfl, (by intro h; cases h), (by intro t h; cases h)⟩, rfl⟩
theorem witness_iteration : (scene .emit 4 []).phase = .emit ∧ (scene .emit 4 []).rxbuf = Memory.zeroed := by decide
theorem witness_cycle_start : (scene .emit 0 []).atCycleStart ∧ (scene .emit 0 []).swapRequested = false :=
  ⟨⟨rfl, rfl⟩, rfl⟩
theorem witness_frame_shown_layer_zero : (writeScene 0).phase = .poll ∧
    frameWritten ((writeScene 0).input 0) = some frameX ∧
    ∀ k, 1 ≤ k → k ≤ 4 - (writeScene 0).layer.val → frameWritten ((writeScene 0).input k) = none := by
  refine ⟨rfl, by decide, fun k h1 h2 => ?_⟩
  have h3 : k ≤ 4 := h2
  interval_cases k <;> decide
theorem witness_frame_shown_layer_four : (writeScene 4).phase = .poll ∧
    frameWritten ((writeScene 4).input 0) = some frameX ∧
    ∀ k, 1 ≤ k → k ≤ 4 - (writeScene 4).layer.val → frameWritten ((writeScene 4).input k) = none := by
  refine ⟨rfl, by decide, fun k h1 h2 => ?_⟩
  have h3 : k ≤ 0 := h2
  omega
theorem witness_flag_clear : (writeScene 2).swapRequested = false := by decide
theorem witness_banks : (Banks.mk defaultPattern stagingReset false false).agrees State.reset := ⟨rfl, rfl, rfl⟩
theorem witness_twenty_bytes : f7Bytes.length = 20 := by decide
theorem witness_payload_lengths : (zeros 20).length ≤ 20 ∧ 20 ≤ (zeros 32).length ∧ (zeros 32).length ≤ 32 ∧
    32 < (zeros 33).length := by decide
theorem witness_round_trip : (writeScene 0).phase = .poll ∧ f7Bytes.length = 20 ∧
    (writeScene 0).input 0 = .write (HostSide.writeBuffer f7Bytes) true ∧
    ∀ k, 1 ≤ k → k ≤ 4 - (writeScene 0).layer.val → frameWritten ((writeScene 0).input k) = none :=
  ⟨rfl, by decide, by decide, witness_frame_shown_layer_zero.2.2⟩
theorem witness_file_calls : (∃ r, HostSide.Driver.start.call .openFile = some r) ∧
    HostSide.Driver.start.session.guard = .free ∧ HostSide.Driver.start.call .closeFile = none ∧
    (∃ r, openDriver.call .openFile = some r) ∧ openDriver.session.guard = .held ∧
    (∃ r, openDriver.call .closeFile = some r) ∧ ∃ r, openDriver.call (.readFile 4 2 (zeros 32) 4) = some r :=
  ⟨⟨_, rfl⟩, rfl, rfl, ⟨_, rfl⟩, rfl, ⟨_, rfl⟩, ⟨_, rfl⟩⟩
theorem witness_device_write : openDriver.session = .held plainBuffer ∧ 32 < (zeros 33).length ∧
    ((zeros 32).length ≤ 32 ∧ 31 < (zeros 32).length) ∧ (zeros 32).length ≤ 32 ∧ (zeros 0).length ≤ 0 := by decide
theorem witness_device_read : openDriver.session = .held plainBuffer ∧ 32 < 33 ∧ 32 ≤ 32 ∧ (zeros 32).length = 32 ∧
    ¬ (2 = 2 ∧ (zeros 31).length = 32) ∧ ¬ (1 = 2 ∧ (zeros 32).length = 32) ∧ 31 < 32 := by decide
theorem witness_host_error : ∃ r, openDriver.call .openFile = some r ∧ HostSide.returnValue r.result < 0 :=
  ⟨_, rfl, by show -((Config.hostErrorCode .sessionBusy : Int) + 1) < 0; omega⟩
theorem witness_host_traffic : (∃ r a, openDriver.call (.writeFile (zeros 32) 32 34) = some r ∧ a ∈ r.bus) ∧
    ∃ r, openDriver.call (.readFile 0 2 (zeros 32) 0) = some r ∧ .read Config.slaveAddr 32 ∈ r.bus :=
  ⟨⟨_, _, rfl, List.mem_singleton.2 rfl⟩, ⟨_, rfl, List.mem_cons_of_mem _ (List.mem_singleton.2 rfl)⟩⟩

end Sys2Proof.Tests
end

/-! ## The latch and the traces are outputs only (R9, R31, R200)

The part of the state that no rule reads is taken apart from the rest (`State.withOutputs`). An operation *appends*
when, whatever that part held, it answers the same rest and extends that part in the same way (`Appends`). Every step
appends, and appending operations compose, so every run appends. -/

namespace Sys2Proof.Machine

/-! ### The outputs of a state, and what a run adds to them -/

/-- The display latch and the three traces of a state (R9, R31). -/
structure Outputs where
  latch : Word
  emitTrace : List Word
  transmitTrace : List (List Byte)
  diagTrace : List Diag

/-- The outputs that a state holds. -/
def State.outputs (s : State) : Outputs := ⟨s.latch, s.emitTrace, s.transmitTrace, s.diagTrace⟩

/-- The state with its outputs replaced. -/
def State.withOutputs (s : State) (o : Outputs) : State :=
  { s with latch := o.latch, emitTrace := o.emitTrace, transmitTrace := o.transmitTrace, diagTrace := o.diagTrace }

theorem State.withOutputs_outputs (s : State) : s.withOutputs s.outputs = s := rfl

/-- What a stretch of a run adds to the outputs: the words it emits, the answers it sends, the records it logs. -/
structure Additions where
  emitted : List Word := []
  sent : List (List Byte) := []
  logged : List Diag := []

/-- The outputs after the additions: the traces grow, and the latch takes the last word emitted, if any. -/
def Additions.onto (a : Additions) (o : Outputs) : Outputs where
  latch := a.emitted.getLastD o.latch
  emitTrace := o.emitTrace ++ a.emitted
  transmitTrace := o.transmitTrace ++ a.sent
  diagTrace := o.diagTrace ++ a.logged

/-- First `a`, then `b`. -/
def Additions.followedBy (a b : Additions) : Additions :=
  ⟨a.emitted ++ b.emitted, a.sent ++ b.sent, a.logged ++ b.logged⟩

theorem Additions.nothing_onto (o : Outputs) : Additions.onto {} o = o := by simp [Additions.onto]

theorem Additions.followedBy_onto (a b : Additions) (o : Outputs) :
    (a.followedBy b).onto o = b.onto (a.onto o) := by
  simp [Additions.onto, Additions.followedBy, List.append_assoc]

/-! ### The operations under other outputs -/

section
variable (s : State) (o : Outputs)

theorem State.withOutputs_consumeInput : (s.withOutputs o).consumeInput = s.consumeInput.withOutputs o := rfl

theorem State.withOutputs_nextEvent : (s.withOutputs o).nextEvent = s.nextEvent := rfl

theorem State.withOutputs_fillRxbuf (bs : List Byte) :
    (s.withOutputs o).fillRxbuf bs = (s.fillRxbuf bs).withOutputs o := rfl

theorem State.withOutputs_goto (p : Phase) : (s.withOutputs o).goto p = (s.goto p).withOutputs o := rfl

theorem State.withOutputs_raise (d : Diag) :
    (s.withOutputs o).raise d = s.withOutputs (Additions.onto { logged := [d] } o) := by
  simp [State.raise, State.withOutputs, Additions.onto]

theorem State.withOutputs_serialEmit (w : Word) :
    (s.withOutputs o).serialEmit w = s.withOutputs (Additions.onto { emitted := [w] } o) := by
  simp [State.serialEmit, State.withOutputs, Additions.onto]

theorem State.withOutputs_transmit_raise (t : List Byte) (d : Diag) :
    ((s.withOutputs o).transmit t).raise d = s.withOutputs (Additions.onto { sent := [t], logged := [d] } o) := by
  simp [State.transmit, State.raise, State.withOutputs, Additions.onto]

theorem State.withOutputs_maybeSwap (l : Fin 5) : (s.withOutputs o).maybeSwap l = (s.maybeSwap l).withOutputs o := by
  cases hd : s.swapDue l with
  | false => rw [State.maybeSwap_not_due l s hd, State.maybeSwap_not_due l (s.withOutputs o) hd]
  | true => rw [State.maybeSwap_due l s hd, State.maybeSwap_due l (s.withOutputs o) hd]; rfl

end

/-! ### Operations that only append -/

/-- From `s` the operation `f` answers `t` and adds `a` to the outputs, whatever the outputs hold. -/
def Appends (f : State → Host.Outcome State Fault Refusal) (s t : State) (a : Additions) : Prop :=
  ∀ o : Outputs, f (s.withOutputs o) = .next (t.withOutputs (a.onto o))

/-- An operation that leaves the outputs alone adds nothing to them. -/
theorem Appends.of_quiet {f : State → Host.Outcome State Fault Refusal} {s t : State}
    (h : ∀ o, f (s.withOutputs o) = .next (t.withOutputs o)) : Appends f s t {} := fun o => by
  rw [Additions.nothing_onto]; exact h o

/-- The service of an event appends (R153 to R155). -/
theorem service_appends (x : Transaction) (s : State) : ∃ t a, Appends (service (eventOf x)) s t a := by
  rcases he : eventOf x with _ | r | r
  case idle => exact ⟨s, {}, .of_quiet fun _ => rfl⟩
  case readAddressed =>
    exact ⟨s, { sent := [s.rxbuf.slice 0 txLen], logged := [.readServiced r] },
      fun o => congrArg Host.Outcome.next (s.withOutputs_transmit_raise o _ _)⟩
  case writeAddressed =>
    cases r with
    | fail =>
      exact ⟨s.fillRxbuf (rxResidue s.polls), { logged := [.rxFail] },
        fun o => congrArg Host.Outcome.next ((s.fillRxbuf (rxResidue s.polls)).withOutputs_raise o .rxFail)⟩
    | ok b =>
      have hl := eventOf_ok_length he
      by_cases ht : tagOf b = opcWritecube
      · refine ⟨(s.fillRxbuf b).apply (payloadOf b), {}, .of_quiet fun o => ?_⟩
        rw [service_ok b _ hl, if_pos ht]; rfl
      · refine ⟨s.fillRxbuf b, { logged := [.unknownOpcode (tagOf b)] }, fun o => ?_⟩
        rw [service_ok b _ hl, if_neg ht, State.unrecognised, State.withOutputs_fillRxbuf, State.withOutputs_raise]

/-- POLL appends: the event does not depend on the outputs, and its service appends (R152). -/
theorem pollStep_appends (s : State) : ∃ t a, Appends pollStep s t a := by
  obtain ⟨u, a, hu⟩ := service_appends (s.input 0) s.consumeInput
  refine ⟨u.goto .clear, a, fun o => ?_⟩
  have hs : service s.nextEvent (s.consumeInput.withOutputs o) = .next (u.withOutputs (a.onto o)) := hu o
  rw [pollStep, State.withOutputs_nextEvent, State.withOutputs_consumeInput, hs, andThen, State.withOutputs_goto]

/-- SWAPCHK leaves the outputs alone and does not read them (R158). -/
theorem swapchkStep_withOutputs (s : State) (o : Outputs) :
    swapchkStep (s.withOutputs o) = (swapchkStep s).withOutputs o :=
  congrArg (State.goto .emit) (s.withOutputs_maybeSwap o s.layer)

/-- Every step appends (R150). -/
theorem step_appends (s : State) : ∃ t a, Appends step s t a := by
  cases hp : s.phase with
  | emit =>
    refine ⟨s.goto .poll, { emitted := [s.readLayer s.layer] }, fun o => ?_⟩
    have he : emitStep (s.withOutputs o) = ((s.withOutputs o).serialEmit (s.readLayer s.layer)).goto .poll := rfl
    rw [step_emit (s := s.withOutputs o) hp, he, State.withOutputs_serialEmit, State.withOutputs_goto]
  | poll =>
    obtain ⟨t, a, ht⟩ := pollStep_appends s
    exact ⟨t, a, fun o => (step_poll (s := s.withOutputs o) hp).trans (ht o)⟩
  | clear => exact ⟨clearStep s, {}, .of_quiet fun o => step_clear (s := s.withOutputs o) hp⟩
  | advance => exact ⟨advanceStep s, {}, .of_quiet fun o => step_advance (s := s.withOutputs o) hp⟩
  | swapchk =>
    refine ⟨swapchkStep s, {}, .of_quiet fun o => ?_⟩
    rw [step_swapchk (s := s.withOutputs o) hp, swapchkStep_withOutputs]

/-- A step that appends, then a run that appends, is a run that appends what both add. -/
theorem Appends.run_succ {s t u : State} {a b : Additions} {n : Nat} (hs : Appends step s t a)
    (hr : Appends (runSteps n) t u b) : Appends (runSteps (n + 1)) s u (a.followedBy b) := fun o => by
  rw [Machine.run_succ n (hs o), hr (a.onto o), Additions.followedBy_onto]

/-- Every run appends, by induction on its number of steps. -/
theorem run_appends (n : Nat) (s : State) : ∃ t a, Appends (runSteps n) s t a := by
  induction n generalizing s with
  | zero => exact ⟨s, {}, .of_quiet fun _ => rfl⟩
  | succ n ih =>
    obtain ⟨t, a, ht⟩ := step_appends s
    obtain ⟨u, b, hu⟩ := ih t
    exact ⟨u, a.followedBy b, ht.run_succ hu⟩

/-- Settles O42: every run appends, and the run from `s` itself is the case of the outputs that `s` holds. -/
theorem outputsAreNeverRead : Obligations.OutputsAreNeverRead := by
  intro n s
  obtain ⟨t, a, ht⟩ := run_appends n s
  have hrun : runSteps n s = .next (t.withOutputs (a.onto s.outputs)) := by
    rw [← ht s.outputs, State.withOutputs_outputs]
  exact ⟨t.withOutputs (a.onto s.outputs), a.emitted, a.sent, a.logged, hrun, rfl, rfl, rfl, rfl,
    fun w em tx dg => ht ⟨w, em, tx, dg⟩⟩

end Sys2Proof.Machine

/-! ## What the steps keep of the state (10_state.md)

A command and the service of an event touch `staging`, the flag, `rxbuf` and the traces only; what they do to each is
said once below, for any event. The statements on `layer`, on `staging` and on the invariant are then read off the five
steps. That the contents of `staging` are hidden while the flag is clear is a relation between two states that every
step keeps, and that the bank select refines the exchange is one that every Frame Store operation keeps. -/

namespace Sys2Proof.Machine

/-! ### Commands (R130 to R133) -/

/-- A command applies a frame or is only diagnosed, whatever the state (R131 to R133). -/
theorem exec_cases (i : Instr) :
    (∃ f, ∀ s, exec i s = .next (s.applyFrame f)) ∨ ∀ s, exec i s = .next (s.unrecognised i.tag) := by
  cases i with
  | writecube page f pad => exact .inl ⟨f, fun _ => rfl⟩
  | rdpgaddr | unknown80 | unknown40 | unknown20 | unknown10 | unknown08 | unknown04 | unknown02 =>
    exact .inr fun _ => rfl

/-- Settles O12: both things a command can do commute with setting `active`, `layer` and `phase`. -/
theorem decoderHasNoAccessToTheDisplaySide : Obligations.DecoderHasNoAccessToTheDisplaySide := by
  intro i s a l p
  rcases exec_cases i with ⟨f, h⟩ | h
  · rw [h, h]; rfl
  · rw [h, h]; rfl

/-! ### The service of an event, and POLL (R152 to R155) -/

section
variable {x : Transaction} {s u : State}

/-- The service of an event applies the frame that the transaction writes, or leaves `staging` and the flag alone
(R23, R25). -/
theorem service_staging (h : service (eventOf x) s = .next u) :
    (∃ f, frameWritten x = some f ∧ u.staging = f ∧ u.swapRequested = true) ∨
    (u.staging = s.staging ∧ u.swapRequested = s.swapRequested) := by
  rcases service_cases x s with ⟨-, hu⟩ | ⟨-, hu⟩ | ⟨b, he, -, ht, hu⟩ | ⟨b, -, -, -, hu⟩ | ⟨r, -, hu⟩ <;>
    obtain rfl := Host.Outcome.next.inj (hu.symm.trans h)
  case inr.inr.inl => exact .inl ⟨_, by simp [frameWritten, he, ht], rfl, rfl⟩
  all_goals exact .inr ⟨rfl, rfl⟩

/-- The service of an event leaves `rxbuf` as it was or fills it (R134, R154). -/
theorem service_rxbuf (h : service (eventOf x) s = .next u) :
    u.rxbuf = s.rxbuf ∨ ∃ bs, u.rxbuf = Memory.ofBytes bs := by
  rcases service_cases x s with ⟨-, hu⟩ | ⟨-, hu⟩ | ⟨b, -, -, -, hu⟩ | ⟨b, -, -, -, hu⟩ | ⟨r, -, hu⟩ <;>
    obtain rfl := Host.Outcome.next.inj (hu.symm.trans h)
  case inl => exact .inl rfl
  case inr.inr.inr.inr => exact .inl rfl
  all_goals exact .inr ⟨_, rfl⟩

/-- The only answer that the service of an event can add is the first `TX_LEN` bytes of `rxbuf` (R155). -/
theorem service_answer (h : service (eventOf x) s = .next u) {a : List Byte} (ha : a ∈ u.transmitTrace) :
    a ∈ s.transmitTrace ∨ a = s.rxbuf.slice 0 txLen := by
  rcases service_cases x s with ⟨-, hu⟩ | ⟨-, hu⟩ | ⟨b, -, -, -, hu⟩ | ⟨b, -, -, -, hu⟩ | ⟨r, -, hu⟩ <;>
    obtain rfl := Host.Outcome.next.inj (hu.symm.trans h)
  case inr.inr.inr.inr => simpa using ha
  all_goals exact .inl ha

end

/-- POLL is the service of the next input, and the move to CLEAR (R152). -/
theorem pollStep_of_service {s u : State} (h : service (eventOf (s.input 0)) s.consumeInput = .next u) :
    pollStep s = .next (u.goto .clear) := by
  rw [pollStep, State.nextEvent, h, andThen]

/-- What POLL answers comes from a service (R152). -/
theorem service_of_pollStep {s t : State} (h : pollStep s = .next t) :
    ∃ u, service (eventOf (s.input 0)) s.consumeInput = .next u ∧ t = u.goto .clear := by
  obtain ⟨u, hu, -⟩ := service_next (s.input 0) s.consumeInput
  exact ⟨u, hu, Host.Outcome.next.inj (h.symm.trans (pollStep_of_service hu))⟩

/-! ### SWAPCHK (R111, R158) -/

/-- SWAPCHK exchanges where the layer is 0 and the flag is set. -/
theorem swapchkStep_due {s : State} (hl : s.layer = 0) (hf : s.swapRequested = true) :
    swapchkStep s = s.exchange.clearSwapRequested.goto .emit := by
  rw [swapchkStep, State.maybeSwap_due _ _ (by simp [State.swapDue, hl, hf])]

/-- SWAPCHK only moves on where the layer is not 0 or the flag is clear. -/
theorem swapchkStep_not_due {s : State} (h : s.layer = 0 → s.swapRequested = false) :
    swapchkStep s = s.goto .emit := by
  rw [swapchkStep, State.maybeSwap_not_due _ _ (by simpa [State.swapDue] using h)]

/-! ### The layer, `staging` and the flag -/

/-- Settles O30: no step but ADVANCE writes `layer`, the service of an event included. -/
theorem layerChangesOnlyInAdvance : Obligations.LayerChangesOnlyInAdvance := by
  intro s t h hp
  rcases step_cases h with ⟨-, rfl⟩ | ⟨-, hpoll⟩ | ⟨-, rfl⟩ | ⟨ha, -⟩ | ⟨-, rfl⟩
  · rfl
  · obtain ⟨u, hu, -, hlayer, -⟩ := pollStep_next s
    obtain rfl := Host.Outcome.next.inj (hu.symm.trans hpoll)
    exact hlayer
  · rfl
  · exact absurd ha hp
  · exact State.maybeSwap_layer s.layer s

/-- Settles O32: POLL writes what its service writes, SWAPCHK what the exchange writes where it is due. -/
theorem stagingWrittenOnlyByCommandOrExchange : Obligations.StagingWrittenOnlyByCommandOrExchange := by
  intro s t h
  rcases step_cases h with ⟨-, rfl⟩ | ⟨hp, hpoll⟩ | ⟨-, rfl⟩ | ⟨-, rfl⟩ | ⟨hp, rfl⟩
  · exact .inr (.inr ⟨rfl, rfl⟩)
  · obtain ⟨u, hu, rfl⟩ := service_of_pollStep hpoll
    exact (service_staging hu).imp (⟨hp, ·⟩) .inr
  · exact .inr (.inr ⟨rfl, rfl⟩)
  · exact .inr (.inr ⟨rfl, rfl⟩)
  · by_cases hdue : s.layer = 0 ∧ s.swapRequested = true
    · obtain ⟨hl, hf⟩ := hdue
      rw [swapchkStep_due hl hf]
      exact .inr (.inl ⟨hp, hl, hf, rfl, rfl⟩)
    · rw [swapchkStep_not_due (by simpa using hdue)]
      exact .inr (.inr ⟨rfl, rfl⟩)

/-! ### The invariant of the block -/

/-- A read is answered from a cleared buffer with zeros (R155, R156). -/
theorem Memory.slice_zeroed : Memory.zeroed.slice 0 txLen = List.replicate txLen 0x00#8 := by
  rw [Memory.slice, Memory.bytes_zeroed]; rfl

section
variable {s t : State}

/-- EMIT gives the latch the word of `active[layer]`. -/
theorem emitStep_keeps_inv (hi : s.Inv) (hp : s.phase = .emit) : (emitStep s).Inv where
  canonical := hi.canonical
  clear _ := hi.clear (by rw [hp]; rfl)
  swapped h := nomatch h.1
  latched _ := rfl
  answered := hi.answered

/-- POLL may fill the buffer, and answers from the cleared one that the phase promises. -/
theorem pollStep_keeps_inv (hi : s.Inv) (hp : s.phase = .poll) (h : pollStep s = .next t) : t.Inv := by
  obtain ⟨v, hv, hactive, hlayer, hphase, hlatch, -⟩ := pollStep_next s
  obtain rfl := Host.Outcome.next.inj (hv.symm.trans h)
  obtain ⟨u, hu, rfl⟩ := service_of_pollStep h
  have hzero : s.consumeInput.rxbuf = Memory.zeroed := hi.clear (by rw [hp]; rfl)
  constructor
  case canonical =>
    show u.rxbuf.wf = true
    rcases service_rxbuf hu with hrx | ⟨bs, hrx⟩
    · rw [hrx, hzero, Memory.wf_zeroed]
    · rw [hrx, Memory.wf_ofBytes]
  case clear => exact fun hc => nomatch hc
  case swapped => exact fun hc => nomatch hc.1
  case latched =>
    intro _
    rw [hlatch, hactive, hlayer]
    exact hi.latched (by rw [hp]; rfl)
  case answered =>
    intro a ha
    rcases service_answer hu ha with hold | hnew
    · exact hi.answered a hold
    · rw [hnew, hzero, Memory.slice_zeroed]

/-- CLEAR zeroes the buffer. -/
theorem clearStep_keeps_inv (hi : s.Inv) (hp : s.phase = .clear) : (clearStep s).Inv where
  canonical := Memory.wf_zeroed
  clear _ := rfl
  swapped h := nomatch h.1
  latched _ := hi.latched (by rw [hp]; rfl)
  answered := hi.answered

/-- ADVANCE ends the phases in which the latch shows `active[layer]`. -/
theorem advanceStep_keeps_inv (hi : s.Inv) (hp : s.phase = .advance) : (advanceStep s).Inv where
  canonical := hi.canonical
  clear _ := hi.clear (by rw [hp]; rfl)
  swapped h := nomatch h.1
  latched h := nomatch h
  answered := hi.answered

/-- SWAPCHK leaves no exchange due: at layer 0 it clears a set flag. -/
theorem swapchkStep_swapped (s : State) (hl : s.layer = 0) : (swapchkStep s).swapRequested = false := by
  cases hf : s.swapRequested with
  | true => rw [swapchkStep_due hl hf]; rfl
  | false => rw [swapchkStep_not_due fun _ => hf]; exact hf

/-- SWAPCHK leads to a cycle start without an exchange due, or to a later layer. -/
theorem swapchkStep_keeps_inv (hi : s.Inv) (hp : s.phase = .swapchk) : (swapchkStep s).Inv where
  canonical := by simpa [swapchkStep] using hi.canonical
  clear _ := by simpa [swapchkStep] using hi.clear (by rw [hp]; rfl)
  swapped h := swapchkStep_swapped s ((State.maybeSwap_layer s.layer s).symm.trans h.2)
  latched h := nomatch h
  answered := by simpa [swapchkStep] using hi.answered

end

/-- Settles O33: each of the five steps keeps the invariant. -/
theorem stepKeepsTheBlockInvariant : Obligations.StepKeepsTheBlockInvariant := by
  intro s t hi h
  rcases step_cases h with ⟨hp, rfl⟩ | ⟨hp, hpoll⟩ | ⟨hp, rfl⟩ | ⟨hp, rfl⟩ | ⟨hp, rfl⟩
  · exact emitStep_keeps_inv hi hp
  · exact pollStep_keeps_inv hi hp hpoll
  · exact clearStep_keeps_inv hi hp
  · exact advanceStep_keeps_inv hi hp
  · exact swapchkStep_keeps_inv hi hp

/-- Settles O34: reset has a clear buffer and a clear flag, is at EMIT and has answered nothing. -/
theorem resetMeetsTheBlockInvariant : Obligations.ResetMeetsTheBlockInvariant where
  canonical := Memory.wf_zeroed
  clear _ := rfl
  swapped _ := rfl
  latched h := nomatch h
  answered _ h := nomatch h

/-- Settles O35: the values that `State.reset` is written with; the buffer reads `0x00` since it is the cleared one. -/
theorem resetValues : Obligations.ResetValues :=
  ⟨rfl, rfl, rfl, rfl, Memory.read_zeroed, rfl, rfl, rfl⟩

/-! ### `staging` while the flag is clear (R34) -/

/-- The state with other contents of `staging`. -/
def State.withStaging (s : State) (f : Frame) : State := { s with staging := f }

/-- The states are equal, or differ in `staging` only and the flag is clear, so that no exchange will show it before a
WRITECUBE has overwritten it. -/
def AlikeButHiddenStaging (s s' : State) : Prop :=
  s' = s ∨ s.swapRequested = false ∧ ∃ f, s' = s.withStaging f

/-- The outputs and the shown frame do not tell such states apart. -/
theorem AlikeButHiddenStaging.same_outputs {s s' : State} (h : AlikeButHiddenStaging s s') :
    s'.emitTrace = s.emitTrace ∧ s'.transmitTrace = s.transmitTrace ∧ s'.diagTrace = s.diagTrace ∧
      s'.active = s.active := by
  rcases h with rfl | ⟨-, f, rfl⟩ <;> exact ⟨rfl, rfl, rfl, rfl⟩

theorem AlikeButHiddenStaging.goto {s s' : State} (h : AlikeButHiddenStaging s s') (p : Phase) :
    AlikeButHiddenStaging (s.goto p) (s'.goto p) := by
  rcases h with rfl | ⟨hf, f, rfl⟩
  · exact .inl rfl
  · exact .inr ⟨hf, f, rfl⟩

section
variable {s : State} (hf : s.swapRequested = false) (f : Frame)
include hf

/-- The service of an event does not read `staging`, and a WRITECUBE overwrites it: then the states are equal. -/
theorem service_withStaging (x : Transaction) : ∃ u u', service (eventOf x) s = .next u ∧
    service (eventOf x) (s.withStaging f) = .next u' ∧ AlikeButHiddenStaging u u' := by
  rcases service_cases x s with ⟨he, hu⟩ | ⟨he, hu⟩ | ⟨b, he, hl, ht, hu⟩ | ⟨b, he, hl, ht, hu⟩ | ⟨r, he, hu⟩
  · exact ⟨_, s.withStaging f, hu, by rw [he]; rfl, .inr ⟨hf, f, rfl⟩⟩
  · exact ⟨_, ((s.withStaging f).fillRxbuf (rxResidue s.polls)).raise .rxFail, hu, by rw [he]; rfl,
      .inr ⟨hf, f, rfl⟩⟩
  · exact ⟨_, (s.fillRxbuf b).applyFrame (frameOfBytes (payloadOf b)), hu,
      by rw [he, service_ok b _ hl, if_pos ht]; rfl, .inl rfl⟩
  · exact ⟨_, ((s.withStaging f).fillRxbuf b).unrecognised (tagOf b), hu,
      by rw [he, service_ok b _ hl, if_neg ht], .inr ⟨hf, f, rfl⟩⟩
  · exact ⟨_, evReadAddressed r (s.withStaging f), hu, by rw [he]; rfl, .inr ⟨hf, f, rfl⟩⟩

/-- With the flag clear, a step neither reads `staging` nor makes a difference in it visible. -/
theorem step_withStaging : ∃ t t', step s = .next t ∧ step (s.withStaging f) = .next t' ∧
    AlikeButHiddenStaging t t' := by
  cases hp : s.phase with
  | emit => exact ⟨_, _, step_emit hp, step_emit hp, .inr ⟨hf, f, rfl⟩⟩
  | poll =>
    obtain ⟨u, u', hu, hu', h⟩ := service_withStaging (s := s.consumeInput) hf f (s.input 0)
    exact ⟨_, _, (step_poll hp).trans (pollStep_of_service hu),
      (step_poll (s := s.withStaging f) hp).trans (pollStep_of_service hu'), h.goto .clear⟩
  | clear => exact ⟨_, _, step_clear hp, step_clear hp, .inr ⟨hf, f, rfl⟩⟩
  | advance => exact ⟨_, _, step_advance hp, step_advance hp, .inr ⟨hf, f, rfl⟩⟩
  | swapchk =>
    refine ⟨_, _, step_swapchk hp, step_swapchk hp, ?_⟩
    rw [swapchkStep_not_due fun _ => hf, swapchkStep_not_due (s := s.withStaging f) fun _ => hf]
    exact .inr ⟨hf, f, rfl⟩

end

/-- Every step keeps the relation; from equal states it leads to equal states. -/
theorem AlikeButHiddenStaging.step {s s' : State} (h : AlikeButHiddenStaging s s') :
    ∃ t t', Machine.step s = .next t ∧ Machine.step s' = .next t' ∧ AlikeButHiddenStaging t t' := by
  rcases h with rfl | ⟨hf, f, rfl⟩
  · obtain ⟨t, a, ht⟩ := step_appends s'
    exact ⟨_, _, ht s'.outputs, ht s'.outputs, .inl rfl⟩
  · exact step_withStaging hf f

/-- Every run keeps the relation, by induction on its number of steps. -/
theorem AlikeButHiddenStaging.run (n : Nat) {s s' : State} (h : AlikeButHiddenStaging s s') :
    ∃ t t', runSteps n s = .next t ∧ runSteps n s' = .next t' ∧ AlikeButHiddenStaging t t' := by
  induction n generalizing s s' with
  | zero => exact ⟨s, s', rfl, rfl, h⟩
  | succ n ih =>
    obtain ⟨t, t', ht, ht', hstep⟩ := h.step
    rw [run_succ n ht, run_succ n ht']
    exact ih hstep

/-- Settles O41: the two states are alike but for hidden `staging`, and stay so. -/
theorem stagingUnobservableWhileFlagClear : Obligations.StagingUnobservableWhileFlagClear := by
  intro n s f hf
  have halike : AlikeButHiddenStaging s (s.withStaging f) := .inr ⟨hf, f, rfl⟩
  obtain ⟨t, t', ht, ht', h⟩ := halike.run n
  exact ⟨t, t', ht, ht', h.same_outputs⟩

/-! ### The bank select (R24) -/

namespace Banks
variable (b : Banks) (f : Frame) (l : Fin 5)

@[simp] theorem apply_active : (b.apply f).active = b.active := by
  cases hsel : b.sel <;> simp [Banks.apply, Banks.active, hsel]

@[simp] theorem apply_staging : (b.apply f).staging = f := by
  cases hsel : b.sel <;> simp [Banks.apply, Banks.staging, hsel]

@[simp] theorem apply_flag : (b.apply f).flag = true := by
  cases hsel : b.sel <;> simp [Banks.apply, hsel]

/-- Flipping the select bit names the two buffers the other way round. -/
theorem maybeSwap_due (h : (l == 0 && b.flag) = true) :
    (b.maybeSwap l).active = b.staging ∧ (b.maybeSwap l).staging = b.active ∧ (b.maybeSwap l).flag = false := by
  cases hsel : b.sel <;> simp [Banks.maybeSwap, h, Banks.active, Banks.staging, hsel]

theorem maybeSwap_not_due (h : (l == 0 && b.flag) = false) : b.maybeSwap l = b := by
  simp [Banks.maybeSwap, h]

variable {b} {s : State}

/-- APPLY keeps the two designs agreeing (R110). -/
theorem agrees.applyFrame (h : b.agrees s) : (b.apply f).agrees (s.applyFrame f) := by
  obtain ⟨hactive, -, -⟩ := h
  exact ⟨by simpa using hactive, by simp, by simp⟩

/-- MAYBE_SWAP keeps the two designs agreeing: both exchange, or neither does (R111). -/
theorem agrees.maybeSwap (h : b.agrees s) : (b.maybeSwap l).agrees (s.maybeSwap l) := by
  have ⟨hactive, hstaging, hflag⟩ := h
  have hdue : (l == 0 && b.flag) = s.swapDue l := by rw [State.swapDue, hflag]
  cases hd : s.swapDue l with
  | false => rwa [maybeSwap_not_due b l (hdue.trans hd), State.maybeSwap_not_due l s hd]
  | true =>
    obtain ⟨hactive', hstaging', hflag'⟩ := maybeSwap_due b l (hdue.trans hd)
    rw [State.maybeSwap_due l s hd]
    exact ⟨hactive'.trans hstaging, hstaging'.trans hactive, hflag'⟩

/-- Every sequence of operations keeps the two designs agreeing, by induction on it. -/
theorem agrees.perform (ops : List StoreOp) (h : b.agrees s) :
    (b.perform ops).agrees (s.perform ops) := by
  induction ops generalizing b s with
  | nil => exact h
  | cons op ops ih =>
    cases op with
    | apply f => exact ih (h.applyFrame f)
    | maybeSwap l => exact ih (h.maybeSwap l)

/-- Agreeing designs display the same word (R112). -/
theorem agrees.readLayer (h : b.agrees s) : b.readLayer l = s.readLayer l :=
  congrArg (frameWord · l) h.1

end Banks

/-- Settles O44: the designs stay agreeing, and what agrees is read alike. -/
theorem bankSelectRefinesExchange : Obligations.BankSelectRefinesExchange := by
  intro ops b s h
  have hops := h.perform ops
  exact ⟨hops, hops.readLayer⟩

end Sys2Proof.Machine

/-! ## A received message in the receive buffer and in `staging` (20_memory.md)

The POLL that receives a message is said once, as an equation (`step_received`); the buffer and the flag are read off
it. That `staging` holds the little-endian words then goes word by word: each word of an assembled frame stands at its
four bytes of the frame bytes, and each frame byte is a byte of the message. -/

namespace Sys2Proof.Machine

/-! ### Operand assembly (R51, R52, R85) -/

/-- Layer `k` of an assembled frame is the word at `4k` (R51). -/
theorem frameWord_frameOfBytes (p : List Byte) (k : Fin 5) : frameWord (frameOfBytes p) k = wordAt p (4 * k.val) := by
  fin_cases k <;> rfl

/-- The value of a word in a byte string is the arithmetic form of R51. -/
theorem wordAt_toNat (bs : List Byte) (i : Nat) :
    (wordAt bs i).toNat = (byteAt bs i).toNat + 256 * (byteAt bs (i + 1)).toNat +
      65536 * (byteAt bs (i + 2)).toNat + 16777216 * (byteAt bs (i + 3)).toNat :=
  le32_toNat _ _ _ _

/-- The frame bytes stand `PAYLOAD_OFFSET` places on in the message (R85). -/
theorem byteAt_payloadOf (msg : List Byte) {i : Nat} (hi : i < frameBytes) :
    byteAt (payloadOf msg) i = byteAt msg (payloadOffset + i) := by
  simp only [byteAt, payloadOf, sliceBytes, List.getD_eq_getElem?_getD, List.getElem?_take_of_lt hi, List.getElem?_drop]

/-- A word inside the frame bytes is the word `PAYLOAD_OFFSET` places on in the message (R85). -/
theorem wordAt_payloadOf (msg : List Byte) {i : Nat} (hi : i + 3 < frameBytes) :
    wordAt (payloadOf msg) i = wordAt msg (payloadOffset + i) := by
  rw [wordAt, byteAt_payloadOf msg (by omega), byteAt_payloadOf msg (by omega), byteAt_payloadOf msg (by omega),
    byteAt_payloadOf msg hi]
  rfl

/-! ### The POLL that receives a message (R130, R154) -/

/-- What the Command Decoder makes of the state once `msg` is in `rxbuf` (R130). -/
def State.received (msg : List Byte) (s : State) : State :=
  if tagOf msg = opcWritecube then (s.fillRxbuf msg).applyFrame (frameOfBytes (payloadOf msg))
  else (s.fillRxbuf msg).unrecognised (tagOf msg)

/-- No command touches `rxbuf`: it stays as the receive filled it (R154). -/
theorem State.received_rxbuf (msg : List Byte) (s : State) : (s.received msg).rxbuf = Memory.ofBytes msg := by
  unfold State.received
  split <;> rfl

theorem State.received_writecube {msg : List Byte} (ht : tagOf msg = opcWritecube) (s : State) :
    s.received msg = (s.fillRxbuf msg).applyFrame (frameOfBytes (payloadOf msg)) :=
  if_pos ht

section
variable {s : State} {msg : List Byte}

/-- A POLL that receives a message carries it out, and CLEAR is next (R130, R152, R154). -/
theorem step_received (hp : s.phase = .poll) (he : s.nextEvent = .writeAddressed (.ok msg)) :
    step s = .next ((s.consumeInput.received msg).goto .clear) := by
  have hevent : eventOf (s.input 0) = .writeAddressed (.ok msg) := he
  have hservice : service (eventOf (s.input 0)) s.consumeInput = .next (s.consumeInput.received msg) := by
    rw [hevent]
    exact service_ok msg s.consumeInput (eventOf_ok_length hevent)
  rw [step_poll hp, pollStep_of_service hservice]

/-- A POLL that receives a WRITECUBE message applies its frame (R131). -/
theorem step_writecube (hp : s.phase = .poll) (he : s.nextEvent = .writeAddressed (.ok msg))
    (ht : tagOf msg = opcWritecube) :
    step s = .next
      (((s.consumeInput.fillRxbuf msg).applyFrame (frameOfBytes (payloadOf msg))).goto .clear) := by
  rw [step_received hp he, State.received_writecube ht]

end

/-- Settles O18: the receive fills the buffer, no command touches it, and a read gives the byte written. -/
theorem receiveFillsTheBuffer : Obligations.ReceiveFillsTheBuffer := by
  intro s msg hp he
  have hrx : ((s.consumeInput.received msg).goto .clear).rxbuf = Memory.ofBytes msg :=
    State.received_rxbuf msg s.consumeInput
  refine ⟨_, step_received hp he, ?_, fun i => ?_⟩
  · rw [hrx, Memory.wf_ofBytes]
  · rw [hrx, Memory.read_ofBytes, byteAt]

/-- Settles O19: word `k` of the applied frame is the word at `4k` of the frame bytes, so at `2 + 4k` of the message. -/
theorem stagingAssembledLittleEndian : Obligations.StagingAssembledLittleEndian := by
  intro s msg hp he ht
  refine ⟨_, step_writecube hp he ht, rfl, rfl, fun k => ?_⟩
  have hword : frameWord (frameOfBytes (payloadOf msg)) k = wordAt msg (2 + 4 * k.val) := by
    rw [frameWord_frameOfBytes, wordAt_payloadOf msg (show 4 * k.val + 3 < 20 by omega)]
  have hplace : ∀ j, 2 + 4 * k.val + j = 2 + j + 4 * k.val := fun j => by omega
  show (frameWord (frameOfBytes (payloadOf msg)) k).toNat = _
  rw [hword, wordAt_toNat, hplace 1, hplace 2, hplace 3]

end Sys2Proof.Machine

/-! ## The encoding (30_encoding.md)

The nine rows partition the tags, so an instruction's tag is accepted by its own row and by no other
(`accepts_tag_eq`); that is why the decoder gives an encoded instruction back. Every message of `RX_LEN` bytes is the
encoding of some well-formed instruction (`exists_encode_eq`), and so decoding and encoding are inverse to each other
on both sides. The POLL that receives a message then reads its tag and its frame bytes only. -/

namespace Sys2Proof.Machine

/-! ### Frames as byte strings (R51) -/

/-- Adjoining slices of a byte string. -/
theorem sliceBytes_append (bs : List Byte) (i m n : Nat) :
    sliceBytes bs i m ++ sliceBytes bs (i + m) n = sliceBytes bs i (m + n) := by
  rw [sliceBytes, sliceBytes, sliceBytes, List.take_add, List.drop_drop]

theorem sliceBytes_all {bs : List Byte} {n : Nat} (h : bs.length = n) : sliceBytes bs 0 n = bs :=
  List.take_of_length_le h.le

theorem byteAt_eq_getElem {bs : List Byte} {i : Nat} (h : i < bs.length) : byteAt bs i = bs[i] := by
  simp [byteAt, h]

/-- The bytes of a word inside a byte string are the four bytes that stand there (R51). -/
theorem bytesOfWord_wordAt {bs : List Byte} {i : Nat} (h : i + 3 < bs.length) :
    bytesOfWord (wordAt bs i) = sliceBytes bs i 4 := by
  have h0 : i < bs.length := by omega
  have h1 : i + 1 < bs.length := by omega
  have h2 : i + 2 < bs.length := by omega
  rw [wordAt, bytesOfWord_le32, sliceBytes, List.drop_eq_getElem_cons h0, List.drop_eq_getElem_cons h1,
    List.drop_eq_getElem_cons h2, List.drop_eq_getElem_cons h, byteAt_eq_getElem h0, byteAt_eq_getElem h1,
    byteAt_eq_getElem h2, byteAt_eq_getElem h]
  rfl

/-- Laying out the frame of a 20-byte string gives the string back (R51). -/
theorem bytesOfFrame_frameOfBytes {p : List Byte} (h : p.length = frameBytes) : bytesOfFrame (frameOfBytes p) = p := by
  have hword : ∀ i, i + 3 < 20 → bytesOfWord (wordAt p i) = sliceBytes p i 4 := fun i hi =>
    bytesOfWord_wordAt (h ▸ hi)
  calc bytesOfFrame (frameOfBytes p)
      = sliceBytes p 0 4 ++ sliceBytes p 4 4 ++ sliceBytes p 8 4 ++ sliceBytes p 12 4 ++ sliceBytes p 16 4 := by
        simp only [bytesOfFrame, frameOfBytes, hword, Nat.reduceAdd, Nat.reduceLT]
    _ = sliceBytes p 0 20 := by
        rw [sliceBytes_append p 0 4 4, sliceBytes_append p 0 8 4, sliceBytes_append p 0 12 4,
          sliceBytes_append p 0 16 4]
    _ = p := sliceBytes_all h

/-- Assembling the bytes of a frame gives the frame back (R51). -/
theorem frameOfBytes_bytesOfFrame (f : Frame) : frameOfBytes (bytesOfFrame f) = f := by
  rw [frameOfBytes, Frame.mk.injEq]
  exact ⟨le32_bytesOfWord f.l0, le32_bytesOfWord f.l1, le32_bytesOfWord f.l2, le32_bytesOfWord f.l3,
    le32_bytesOfWord f.l4⟩

@[simp] theorem length_bytesOfFrame (f : Frame) : (bytesOfFrame f).length = frameBytes := rfl

end Sys2Proof.Machine

namespace Sys2Proof

open Sys2Proof.Machine

/-! ### The opcode map (R86) -/

/-- Settles O4: the 256 tags, one by one. -/
theorem everyTagHasExactlyOneRow : Obligations.EveryTagHasExactlyOneRow := by
  unfold Obligations.EveryTagHasExactlyOneRow
  decide

/-- Two rows that accept the same tag are the same row. -/
theorem accepts_unique {tag : Byte} {r r' : OpcodeRow} (hr : r ∈ opcodeRows) (hr' : r' ∈ opcodeRows)
    (h : r.accepts tag = true) (h' : r'.accepts tag = true) : r = r' := by
  obtain ⟨only, honly⟩ := List.length_eq_one_iff.mp (everyTagHasExactlyOneRow tag)
  have heq : ∀ q ∈ opcodeRows, q.accepts tag = true → q = only := fun q hq hacc =>
    List.mem_singleton.mp (honly ▸ List.mem_filter.mpr ⟨hq, hacc⟩)
  rw [heq r hr h, heq r' hr' h']

/-- The row of the opcode map that an instruction stands for. -/
def Instr.row : Instr → OpcodeRow
  | .writecube _ _ _ => rowWritecube
  | .rdpgaddr _ => rowRdpgaddr
  | .unknown80 _ _ => row80
  | .unknown40 _ _ => row40
  | .unknown20 _ _ => row20
  | .unknown10 _ _ => row10
  | .unknown08 _ _ => row08
  | .unknown04 _ _ => row04
  | .unknown02 _ _ => row02

theorem Instr.row_mem (i : Instr) : i.row ∈ opcodeRows := by
  cases i <;> simp [Instr.row, opcodeRows]

/-- The row accepts the instruction's tag, whatever the free bits are. -/
theorem Instr.row_accepts_tag (i : Instr) : i.row.accepts i.tag = true := by
  cases i with
  | writecube | rdpgaddr =>
    simp only [Instr.row, Instr.tag]
    decide
  | unknown80 t | unknown40 t | unknown20 t | unknown10 t | unknown08 t | unknown04 t | unknown02 t =>
    simp only [Instr.row, Instr.tag]
    revert t
    decide

/-- Of the nine rows, exactly the instruction's own accepts its tag. -/
theorem accepts_tag_eq (i : Instr) : ∀ r ∈ opcodeRows, r.accepts i.tag = decide (r = i.row) := by
  intro r hr
  rw [Bool.eq_iff_iff, decide_eq_true_iff]
  exact ⟨fun h => accepts_unique hr i.row_mem h i.row_accepts_tag, fun h => h ▸ i.row_accepts_tag⟩

/-! ### Decoding what was encoded (R81, R85) -/

/-- The message of a well-formed instruction has `RX_LEN` bytes and begins with its tag. -/
theorem encode_length_tag (i : Instr) : Laws.EncodeLength.Statement i := by
  cases i with
  | writecube page frame pad => exact Laws.EncodeLength.writecube page frame pad
  | rdpgaddr | unknown80 | unknown40 | unknown20 | unknown10 | unknown08 | unknown04 | unknown02 =>
    exact fun h => Laws.EncodeLength.of_rest _ h

/-- The frame bytes of a WRITECUBE message are those of its frame (R85). -/
theorem payloadOf_encode_writecube (page : Byte) (frame : Frame) (pad : List Byte) :
    payloadOf (encode (.writecube page frame pad)) = bytesOfFrame frame :=
  List.take_left' (length_bytesOfFrame frame)

/-- After them stands the padding (R81). -/
theorem drop_encode_writecube (page : Byte) (frame : Frame) (pad : List Byte) :
    (encode (.writecube page frame pad)).drop (payloadOffset + frameBytes) = pad :=
  List.drop_left' (length_bytesOfFrame frame)

/-- A message with the tag of RDPGADDR (R132). -/
theorem decode_rdpgaddr (msg : List Byte) (hl : msg.length = rxLen) (ht : tagOf msg = opcRdpgaddr) :
    decode msg = .ok (.rdpgaddr (msg.drop 1)) := by
  simp [decode, decodeMessage, hl, rowWritecube_accepts, rowRdpgaddr_accepts, ht]

/-- Decoding the message of a well-formed instruction gives it back: the rows before its own reject its tag,
its own accepts it, and the bytes stand where the decoder looks for them. -/
theorem decode_encode (i : Instr) (hi : i.wellFormed = true) : decode (encode i) = .ok i := by
  obtain ⟨hlen, htag⟩ := encode_length_tag i hi
  have hrows := accepts_tag_eq i
  have hdistinct : opcodeRows.Nodup := by decide
  simp only [opcodeRows, List.forall_mem_cons] at hrows
  simp only [opcodeRows, List.nodup_cons, List.mem_cons, not_or] at hdistinct
  cases i with
  | writecube page frame pad =>
    rw [decode_writecube _ hlen htag, payloadOf_encode_writecube, frameOfBytes_bytesOfFrame, drop_encode_writecube]
    rfl
  | rdpgaddr rest => exact decode_rdpgaddr _ hlen htag
  | unknown80 t | unknown40 t | unknown20 t | unknown10 t | unknown08 t | unknown04 t | unknown02 t =>
    simp only [decode, hlen, decodeMessage, htag, hrows, hdistinct, Instr.row, decide_true, decide_false,
      Bool.false_eq_true, if_true, if_false]
    congr
    exact BitVec.extractLsb'_append_eq_right

/-- A message spelled out decodes to the instruction that it is the encoding of. -/
theorem decode_of_encode_eq {i : Instr} {msg : List Byte} (hi : i.wellFormed = true) (h : encode i = msg) :
    decode msg = .ok i :=
  h ▸ decode_encode i hi

/-- Settles O1: decoding undoes encoding, row by row. -/
theorem decodeOfEncodeIsIdentity : Obligations.DecodeOfEncodeIsIdentity :=
  decode_encode

/-! ### Encoding what was decoded (R86, R87) -/

/-- A message with the tag of WRITECUBE: the first 20 bytes after the page byte are those of the frame they assemble
to. -/
theorem exists_encode_eq_writecube {rest : List Byte} (hrest : restFits rest = true) :
    ∃ i : Instr, i.wellFormed = true ∧ encode i = opcWritecube :: rest := by
  obtain _ | ⟨page, body⟩ := rest
  · exact absurd hrest (by decide)
  have hbody : body.length = 32 := Nat.succ.inj (beq_iff_eq.mp hrest)
  have hframe : bytesOfFrame (frameOfBytes (body.take 20)) = body.take 20 :=
    bytesOfFrame_frameOfBytes (by simp [hbody])
  refine ⟨.writecube page (frameOfBytes (body.take 20)) (body.drop 20), ?_, ?_⟩
  · simp [Instr.wellFormed, padFits, hbody]
  · rw [encode, Instr.body, hframe, List.take_append_drop]
    rfl

/-- Every message of `RX_LEN` bytes is the message of a well-formed instruction: of the row that accepts its tag. -/
theorem exists_encode_eq (msg : List Byte) (hl : msg.length = rxLen) :
    ∃ i : Instr, i.wellFormed = true ∧ encode i = msg := by
  obtain _ | ⟨tag, rest⟩ := msg
  · exact absurd hl (by decide)
  have hrest : restFits rest = true := beq_iff_eq.mpr (Nat.succ.inj hl)
  have hsome := some_row_accepts tag
  simp only [opcodeRows, List.any_cons, List.any_nil, Bool.or_false, Bool.or_eq_true] at hsome
  rcases hsome with h | h | h | h | h | h | h | h | h
  · rw [rowWritecube_accepts, decide_eq_true_iff] at h
    exact h ▸ exists_encode_eq_writecube hrest
  · rw [rowRdpgaddr_accepts, decide_eq_true_iff] at h
    exact ⟨.rdpgaddr rest, hrest, h ▸ rfl⟩
  · exact ⟨.unknown80 _ rest, hrest, congrArg (· :: rest) (row80_tag tag h)⟩
  · exact ⟨.unknown40 _ rest, hrest, congrArg (· :: rest) (row40_tag tag h)⟩
  · exact ⟨.unknown20 _ rest, hrest, congrArg (· :: rest) (row20_tag tag h)⟩
  · exact ⟨.unknown10 _ rest, hrest, congrArg (· :: rest) (row10_tag tag h)⟩
  · exact ⟨.unknown08 _ rest, hrest, congrArg (· :: rest) (row08_tag tag h)⟩
  · exact ⟨.unknown04 _ rest, hrest, congrArg (· :: rest) (row04_tag tag h)⟩
  · exact ⟨.unknown02 _ rest, hrest, congrArg (· :: rest) (row02_tag tag h)⟩

/-- Settles O2: the message is the encoding of some instruction, and decoding finds that instruction. -/
theorem encodeOfDecodeIsIdentity : Obligations.EncodeOfDecodeIsIdentity := by
  intro msg hl
  obtain ⟨i, hwf, rfl⟩ := exists_encode_eq msg hl
  exact ⟨i, decode_encode i hwf, hwf, rfl⟩

/-- Settles O5: the four messages are the encodings of the four instructions. -/
theorem spelledMessagesDecode : Obligations.SpelledMessagesDecode :=
  ⟨decode_of_encode_eq rfl (by decide), decode_of_encode_eq rfl (by decide), decode_of_encode_eq rfl (by decide),
    decode_of_encode_eq rfl (by decide)⟩

end Sys2Proof

namespace Sys2Proof.Machine

/-! ### The receive of a write transaction (R90) -/

section
variable {sent : List Byte}

theorem receiveWrite_full (h : sent.length = rxLen) : receiveWrite sent true = .ok sent := by
  simp [receiveWrite, h]

theorem receiveWrite_short (h : sent.length < rxLen) : receiveWrite sent true = .fail := by
  simp [receiveWrite, h, h.ne]

/-- A longer write is received as one of the two values of `OVERLONG_POLICY` says. -/
theorem receiveWrite_overlong (h : rxLen < sent.length) :
    receiveWrite sent true = .fail ∨ receiveWrite sent true = .ok (sent.take rxLen) := by
  cases hp : Config.overlongPolicy with
  | fail => exact .inl (by simp [receiveWrite, h.ne', h.not_gt, hp])
  | truncate => exact .inr (by simp [receiveWrite, h.ne', h.not_gt, hp])

end

/-- Settles O15: the three lengths, the last under either policy. -/
theorem receiveOutcomeByLength : Obligations.ReceiveOutcomeByLength := fun _ =>
  ⟨receiveWrite_full, receiveWrite_short, receiveWrite_overlong⟩

/-! ### What a received message changes (R87 to R89) -/

theorem State.received_unrecognised {msg : List Byte} (ht : tagOf msg ≠ opcWritecube) (s : State) :
    s.received msg = (s.fillRxbuf msg).unrecognised (tagOf msg) :=
  if_neg ht

/-- Settles O20: the received message is only diagnosed, and the POLL moves on. -/
theorem unrecognisedMessageOnlyDiagnosed : Obligations.UnrecognisedMessageOnlyDiagnosed := by
  intro s msg hp he ht
  rw [step_received hp he, State.received_unrecognised ht]
  rfl

/-- But for `rxbuf`, the tag and the frame bytes of a message say all that it changes (R88, R89). -/
theorem State.received_congr {m m' : List Byte} (htag : tagOf m = tagOf m') (hpayload : payloadOf m = payloadOf m')
    (s : State) : s.received m' = { s.received m with rxbuf := Memory.ofBytes m' } := by
  by_cases ht : tagOf m = opcWritecube
  · rw [State.received_writecube ht, State.received_writecube (htag ▸ ht), hpayload]
    rfl
  · rw [State.received_unrecognised ht, State.received_unrecognised (htag ▸ ht), htag]
    rfl

/-- An intact write of `RX_LEN` bytes, next on the bus, is carried out by the POLL (R90, R152). -/
theorem step_pending_write {s : State} {m : List Byte} (rest : List Transaction) (hp : s.phase = .poll)
    (hl : m.length = rxLen) : step { s with pending := .write m true :: rest } =
      .next ((State.received m { s with pending := rest, polls := s.polls + 1 }).goto .clear) :=
  step_received (s := { s with pending := .write m true :: rest }) hp
    (congrArg Event.writeAddressed (receiveWrite_full hl))

/-- Settles O21: the two messages are received from the same state, and agree in tag and frame bytes. -/
theorem pageByteAndPaddingIgnored : Obligations.PageByteAndPaddingIgnored := by
  intro s m m' rest hp hl hl' htag hpayload
  refine ⟨_, step_pending_write rest hp hl, ?_⟩
  rw [step_pending_write rest hp hl', State.received_congr htag hpayload]
  rfl

end Sys2Proof.Machine

/-! ## The Frame Store operations (40_frame_store_ops.md)

APPLY, MAYBE_SWAP and READ_LAYER are each read off their own definition. That a written frame is shown after the next
swap point goes by the number of steps to it (`State.stepsToSwap`), which every step before it lowers by one: till then
the frame waits in `staging` with the flag set (`State.Waiting`), and the last of these steps exchanges it. -/

namespace Sys2Proof.Machine

/-! ### APPLY (R110, R114, R115) -/

theorem exec_writecube (page : Byte) (frame : Frame) (pad : List Byte) (s : State) :
    exec (.writecube page frame pad) s = .next (s.applyFrame frame) := rfl

/-- The last writer wins (R114); with equal frames this is idempotence (R115). -/
@[simp] theorem State.applyFrame_applyFrame (f g : Frame) (s : State) :
    (s.applyFrame f).applyFrame g = s.applyFrame g := rfl

/-- Settles O10: each WRITECUBE applies its frame, and the second overwrites the first. -/
theorem lastWritecubeWins : Obligations.LastWritecubeWins := by
  intro page page' f g pad pad' s
  refine ⟨s.applyFrame f, exec_writecube page f pad s, ?_⟩
  rw [exec_writecube, State.applyFrame_applyFrame]
  rfl

/-- Settles O11: word `k` of the applied frame is the word at `4k` of the payload. -/
theorem applyCopiesPayloadAndSetsFlag : Obligations.ApplyCopiesPayloadAndSetsFlag := by
  intro p s _
  refine ⟨⟨frameOfBytes p, rfl, fun k => ?_⟩, State.applyFrame_applyFrame _ _ s⟩
  rw [frameWord_frameOfBytes, wordAt_toNat]

/-- Settles O46: laying out and assembling undo each other. -/
theorem frameLayoutIsBijective : Obligations.FrameLayoutIsBijective :=
  ⟨fun _ h => bytesOfFrame_frameOfBytes h, fun f => ⟨length_bytesOfFrame f, frameOfBytes_bytesOfFrame f⟩⟩

/-! ### MAYBE_SWAP (R111) and READ_LAYER (R112) -/

theorem State.swapDue_iff (l : Fin 5) (s : State) : s.swapDue l = true ↔ l = 0 ∧ s.swapRequested = true := by
  simp [State.swapDue]

/-- Settles O26: the exchange is due exactly at index 0 with the flag set. -/
theorem swapchkExchangesAtLayerZero : Obligations.SwapchkExchangesAtLayerZero := by
  refine ⟨fun l s => ?_, fun s hp => step_swapchk hp⟩
  by_cases h : l = 0 ∧ s.swapRequested = true
  · rw [if_pos h, State.maybeSwap_due l s ((s.swapDue_iff l).mpr h)]
    rfl
  · rw [if_neg h, State.maybeSwap_not_due l s (by rwa [← Bool.not_eq_true, State.swapDue_iff])]

/-- READ_LAYER sees `active` and nothing else of the state (R112). -/
theorem State.readLayer_congr {s t : State} (h : t.active = s.active) (l : Fin 5) : t.readLayer l = s.readLayer l :=
  congrArg (frameWord · l) h

/-- Settles O27: the five words of `active`, which a write to `staging` leaves alone. -/
theorem readLayerReadsActiveOnly : Obligations.ReadLayerReadsActiveOnly := fun _ _ =>
  ⟨rfl, rfl, rfl, rfl, rfl, State.readLayer_congr rfl⟩

/-- Settles O31: EMIT, POLL, CLEAR and ADVANCE leave `active` alone, and so does SWAPCHK but in an exchange. -/
theorem activeChangesOnlyAtSwapPoint : Obligations.ActiveChangesOnlyAtSwapPoint := by
  intro s t h hne
  rcases step_cases h with ⟨-, rfl⟩ | ⟨-, hpoll⟩ | ⟨-, rfl⟩ | ⟨-, rfl⟩ | ⟨hp, rfl⟩
  · exact absurd rfl hne
  · obtain ⟨u, hu, hactive, -⟩ := pollStep_next s
    obtain rfl := Host.Outcome.next.inj (hu.symm.trans hpoll)
    exact absurd hactive hne
  · exact absurd rfl hne
  · exact absurd rfl hne
  · by_cases hdue : s.layer = 0 ∧ s.swapRequested = true
    · obtain ⟨hl, hf⟩ := hdue
      rw [swapchkStep_due hl hf]
      exact ⟨hp, hl, hf, rfl, rfl, rfl⟩
    · rw [swapchkStep_not_due (by simpa using hdue)] at hne
      exact absurd rfl hne

/-! ### The way to the swap point (R61, R113) -/

/-- Every state has a next one (R161). -/
theorem step_next (s : State) : ∃ t, step s = .next t := by
  obtain ⟨t, a, ht⟩ := step_appends s
  exact ⟨_, ht s.outputs⟩

/-- The number of steps up to the next SWAPCHK at layer 0, that one included: those of this iteration, and five for
each layer that is still to come in this cycle (R150, R157). -/
def State.stepsToSwap (s : State) : Nat :=
  match s.phase with
  | .emit => 5 + 5 * (4 - s.layer.val)
  | .poll => 4 + 5 * (4 - s.layer.val)
  | .clear => 3 + 5 * (4 - s.layer.val)
  | .advance => 2 + 5 * (4 - s.layer.val)
  | .swapchk => 1 + 5 * ((5 - s.layer.val) % 5)

/-- The swap point is one step away exactly where the next step is SWAPCHK with layer 0. -/
theorem State.stepsToSwap_eq_one_iff (s : State) : s.stepsToSwap = 1 ↔ s.phase = .swapchk ∧ s.layer = 0 := by
  have hl := s.layer.isLt
  rw [Fin.ext_iff, Fin.val_zero]
  cases hp : s.phase <;> simp only [State.stepsToSwap, hp, reduceCtorEq, true_and, false_and, iff_false] <;> omega

/-- Every step before the swap point brings it one step nearer, whatever the bus does. -/
theorem step_stepsToSwap {s t : State} (h : step s = .next t) (hfar : s.stepsToSwap ≠ 1) :
    s.stepsToSwap = t.stepsToSwap + 1 := by
  have hl := s.layer.isLt
  rcases step_cases h with ⟨hp, rfl⟩ | ⟨hp, hpoll⟩ | ⟨hp, rfl⟩ | ⟨hp, rfl⟩ | ⟨hp, rfl⟩
  · simp only [State.stepsToSwap, hp, emitStep, State.goto_phase, State.goto_layer, State.serialEmit_layer]
    omega
  · obtain ⟨u, hu, -, hlayer, hphase, -⟩ := pollStep_next s
    obtain rfl := Host.Outcome.next.inj (hu.symm.trans hpoll)
    simp only [State.stepsToSwap, hp, hphase, hlayer]
    omega
  · simp only [State.stepsToSwap, hp, clearStep, State.goto_phase, State.goto_layer]
    omega
  · simp only [State.stepsToSwap, hp, advanceStep, nextLayer, nLayers, State.goto_phase, State.goto_layer]
    omega
  · simp only [State.stepsToSwap, hp, swapchkStep, State.goto_phase, State.goto_layer, State.maybeSwap_layer] at hfar ⊢
    omega

/-- POLL takes one input, and no other step takes any (R65, R152). -/
theorem step_input {s t : State} (h : step s = .next t) :
    (s.phase = .poll ∧ ∀ k, t.input k = s.input (k + 1)) ∨ (s.phase ≠ .poll ∧ t.input = s.input) := by
  rcases step_cases h with ⟨hp, rfl⟩ | ⟨hp, hpoll⟩ | ⟨hp, rfl⟩ | ⟨hp, rfl⟩ | ⟨hp, rfl⟩
  case inr.inl =>
    obtain ⟨u, hu, -, -, -, -, -, hpending, hpolls⟩ := pollStep_next s
    obtain rfl := Host.Outcome.next.inj (hu.symm.trans hpoll)
    refine .inl ⟨hp, fun k => ?_⟩
    rw [State.input_congr (s := s.consumeInput) hpending hpolls, State.consumeInput_input]
  case inr.inr.inr.inr =>
    exact .inr ⟨by simp [hp], State.input_congr (State.maybeSwap_pending s.layer s) (State.maybeSwap_polls s.layer s)⟩
  all_goals exact .inr ⟨by simp [hp], State.input_congr rfl rfl⟩

/-! ### A frame that waits for the swap point (R116) -/

/-- The frame `f` waits in `staging` with the flag set, the swap point is `m` steps away, and no WRITECUBE comes before
it. A POLL is the fourth step before the end of its iteration, so the `k`-th coming one is before the swap point exactly
if `5k + 4 ≤ m`. -/
structure State.Waiting (f : Frame) (m : Nat) (s : State) : Prop where
  staged : s.staging = f
  requested : s.swapRequested = true
  distance : s.stepsToSwap = m
  undisturbed : ∀ k, 5 * k + 4 ≤ m → frameWritten (s.input k) = none

/-- What R116 says of a frame `f` that the swap point is to show in `m` steps: it does, and `active` is what it was till
then. -/
def State.ShownAfter (f : Frame) (m : Nat) (s : State) : Prop :=
  (∃ t, runSteps m s = .next t ∧ t.atCycleStart ∧ t.active = f ∧ t.swapRequested = false) ∧
    ∀ n u, n < m → runSteps n s = .next u → u.active = s.active

/-- A step that keeps `active` puts the showing off by one step. -/
theorem State.ShownAfter.of_step {f : Frame} {m : Nat} {s t : State} (h : step s = .next t)
    (hactive : t.active = s.active) (ht : t.ShownAfter f m) : s.ShownAfter f (m + 1) := by
  obtain ⟨hshown, hbefore⟩ := ht
  refine ⟨by rwa [run_succ m h], fun n u hn hu => ?_⟩
  cases n with
  | zero => cases hu; rfl
  | succ n =>
    rw [run_succ n h] at hu
    exact (hbefore n u (by omega) hu).trans hactive

namespace State.Waiting
variable {f : Frame} {m : Nat} {s t : State}

/-- Before the swap point a step keeps the frame waiting, one step nearer to it, and does not change `active`. -/
theorem step_far (hw : s.Waiting f (m + 2)) (h : step s = .next t) : t.Waiting f (m + 1) ∧ t.active = s.active := by
  have hdist := hw.distance
  have hfar : s.stepsToSwap ≠ 1 := by omega
  have hnear := step_stepsToSwap h hfar
  have hpoll : s.phase = .poll → 4 ≤ m + 2 := fun hp => by simp only [stepsToSwap, hp] at hdist; omega
  have hkept : t.staging = s.staging ∧ t.swapRequested = s.swapRequested := by
    rcases stagingWrittenOnlyByCommandOrExchange s t h with ⟨hp, g, hg, -⟩ | ⟨hp, hl, -⟩ | hkept
    · exact absurd (hg.symm.trans (hw.undisturbed 0 (hpoll hp))) nofun
    · exact absurd (s.stepsToSwap_eq_one_iff.mpr ⟨hp, hl⟩) hfar
    · exact hkept
  obtain ⟨hstaging, hflag⟩ := hkept
  refine ⟨⟨hstaging.trans hw.staged, hflag.trans hw.requested, by omega, fun k hk => ?_⟩, ?_⟩
  · rcases step_input h with ⟨hp, hinput⟩ | ⟨-, hinput⟩
    · rw [hinput]
      refine hw.undisturbed (k + 1) ?_
      simp only [stepsToSwap, hp] at hdist
      omega
    · rw [hinput]
      exact hw.undisturbed k (by omega)
  · by_contra hne
    obtain ⟨hp, hl, -⟩ := activeChangesOnlyAtSwapPoint s t h hne
    exact hfar (s.stepsToSwap_eq_one_iff.mpr ⟨hp, hl⟩)

/-- At the swap point the waiting frame is exchanged into `active`, and a cycle starts (R111, R158). -/
theorem step_swap (hw : s.Waiting f 1) :
    ∃ t, step s = .next t ∧ t.atCycleStart ∧ t.active = f ∧ t.swapRequested = false := by
  obtain ⟨hp, hl⟩ := s.stepsToSwap_eq_one_iff.mp hw.distance
  refine ⟨_, step_swapchk hp, ?_⟩
  rw [swapchkStep_due hl hw.requested]
  exact ⟨⟨rfl, hl⟩, hw.staged, rfl⟩

/-- A waiting frame is shown when the swap point is reached, by induction on the steps to it. -/
theorem shownAfter (hw : s.Waiting f (m + 1)) : s.ShownAfter f (m + 1) := by
  induction m generalizing s with
  | zero =>
    obtain ⟨t, ht, hshown⟩ := hw.step_swap
    refine ⟨⟨t, run_succ 0 ht, hshown⟩, fun n u hn hu => ?_⟩
    obtain rfl : n = 0 := by omega
    cases hu; rfl
  | succ m ih =>
    obtain ⟨t, ht⟩ := step_next s
    obtain ⟨hw', hactive⟩ := hw.step_far ht
    exact .of_step ht hactive (ih hw')

end State.Waiting

/-! ### A written frame is shown (R116) -/

/-- A transaction that writes a frame is received as a WRITECUBE message with the bytes of that frame (R131, R154). -/
theorem frameWritten_eq_some {x : Transaction} {f : Frame} (h : frameWritten x = some f) :
    ∃ msg, eventOf x = .writeAddressed (.ok msg) ∧ tagOf msg = opcWritecube ∧ frameOfBytes (payloadOf msg) = f := by
  unfold frameWritten at h
  split at h
  next msg he =>
    split at h
    next ht => exact ⟨msg, he, ht, Option.some.inj h⟩
    next => cases h
  next => cases h

/-- The POLL that services a WRITECUBE leaves its frame waiting for the next swap point. -/
theorem step_poll_waiting {s : State} {f : Frame} (hp : s.phase = .poll) (hf : frameWritten (s.input 0) = some f)
    (hnone : ∀ k, 1 ≤ k → k ≤ 4 - s.layer.val → frameWritten (s.input k) = none) :
    ∃ t, step s = .next t ∧ t.active = s.active ∧ t.Waiting f (5 * (4 - s.layer.val) + 3) := by
  obtain ⟨msg, he, ht, rfl⟩ := frameWritten_eq_some hf
  have hstep := step_writecube hp he ht
  refine ⟨_, hstep, rfl, rfl, rfl, Nat.add_comm 3 _, fun k hk => ?_⟩
  rcases step_input hstep with ⟨-, hinput⟩ | ⟨hp', -⟩
  · rw [hinput]
    exact hnone (k + 1) (by omega) (by omega)
  · exact absurd hp hp'

/-- Settles O40: after its POLL the frame waits, and a waiting frame is shown at the swap point. -/
theorem writtenFrameShownWithinOneCycle : Obligations.WrittenFrameShownWithinOneCycle := by
  intro s f hp hf hnone
  obtain ⟨t, ht, hactive, hw⟩ := step_poll_waiting hp hf hnone
  have hshown : s.ShownAfter f (5 * (4 - s.layer.val) + 4) := .of_step ht hactive hw.shownAfter
  rwa [Nat.add_comm] at hshown

/-! ### A pattern that the host writes (R117) -/

/-- The message of a `writePage`, received whole, writes the frame of its frame bytes (R131, R182). -/
theorem frameWritten_writeBuffer (d : List Byte) :
    frameWritten (.write (HostSide.writeBuffer d) true) = some (frameOfBytes (payloadOf (HostSide.writeBuffer d))) := by
  have htag : tagOf (HostSide.writeBuffer d) = opcWritecube := rfl
  rw [frameWritten, eventOf, receiveWrite_full (HostSide.writeBuffer_length d)]
  exact if_pos htag

/-- The frame bytes of the message for a 20-byte pattern are the pattern (R117, R182). -/
theorem payloadOf_writeBuffer {x : List Byte} (h : x.length = frameBytes) : payloadOf (HostSide.writeBuffer x) = x := by
  rw [HostSide.writeBuffer_of_fits (by simp [h])]
  exact List.take_left' h

/-- Settles O48: the message writes the frame of the pattern, `active` shows that frame after the swap point, and laying
it out gives the pattern back. -/
theorem hostWriteRoundTrip : Obligations.HostWriteRoundTrip := by
  intro s x hp hx h0 hnone
  have hwritten : frameWritten (s.input 0) = some (frameOfBytes x) := by
    rw [h0, frameWritten_writeBuffer, payloadOf_writeBuffer hx]
  obtain ⟨⟨t, ht, -, hactive, -⟩, -⟩ := writtenFrameShownWithinOneCycle s (frameOfBytes x) hp hwritten hnone
  exact ⟨t, ht, by rw [hactive, bytesOfFrame_frameOfBytes hx]⟩

end Sys2Proof.Machine

/-! ## The Command Decoder (41_command_decoder.md)

The meanings of the rows first: WRITECUBE applies its frame, every other row is only diagnosed. What a decoded message
does then depends on its tag and its frame bytes only (`exec_of_decode`). The POLL steps around the decoder are those of
a message that is received and of a receive that fails; and the frame bytes of a host's message are the first 20 bytes
of its data, zeros where there are fewer (`payloadOf_writeBuffer_padded`). -/

namespace Sys2Proof

open Sys2Proof.Machine

/-! ### The commands (R131 to R133) -/

/-- Settles O7: WRITECUBE applies its frame, which is to write `staging` and the flag. -/
theorem writecubeCompletes : Obligations.WritecubeCompletes :=
  exec_writecube

/-- An instruction of any row but that of WRITECUBE is only diagnosed (R87, R132, R133). -/
theorem exec_of_row {i : Instr} {r : OpcodeRow} (hi : i.row = r) (hr : r ≠ rowWritecube) (s : State) :
    exec i s = .next (s.unrecognised i.tag) := by
  subst hi
  cases i with
  | writecube => exact absurd rfl hr
  | rdpgaddr | unknown80 | unknown40 | unknown20 | unknown10 | unknown08 | unknown04 | unknown02 => rfl

/-- Settles O8: the row of RDPGADDR is not that of WRITECUBE, and its tag is `0x00`. -/
theorem rdpgaddrCompletes : Obligations.RdpgaddrCompletes := fun _ =>
  exec_of_row (r := rowRdpgaddr) rfl (by decide)

/-- Settles O9: none of the seven rows is that of WRITECUBE, and the tag of each is its fixed bits and its free bits. -/
theorem unknownRowsComplete : Obligations.UnknownRowsComplete := fun _ s =>
  ⟨fun _ => exec_of_row (r := row80) rfl (by decide) s,
    fun _ => exec_of_row (r := row40) rfl (by decide) s,
    fun _ => exec_of_row (r := row20) rfl (by decide) s,
    fun _ => exec_of_row (r := row10) rfl (by decide) s,
    fun _ => exec_of_row (r := row08) rfl (by decide) s,
    fun _ => exec_of_row (r := row04) rfl (by decide) s,
    fun _ => exec_of_row (r := row02) rfl (by decide) s⟩

/-! ### DECODE (R130) -/

/-- Settles O3: the decoder looks at the number of bytes before anything else. -/
theorem otherLengthsAreRejected : Obligations.OtherLengthsAreRejected := by
  intro msg hl
  rw [decode, if_neg hl]

section
variable {msg : List Byte} {i : Instr}

/-- What decodes is a message of `RX_LEN` bytes. -/
theorem length_of_decode (h : decode msg = .ok i) : msg.length = rxLen := by
  by_contra hl
  cases (otherLengthsAreRejected msg hl).symm.trans h

/-- What a decoded message does is said by its tag and its frame bytes (R130, R131). -/
theorem exec_of_decode (h : decode msg = .ok i) (s : State) :
    exec i s = .next (if tagOf msg = opcWritecube then s.apply (payloadOf msg) else s.unrecognised (tagOf msg)) := by
  have hl := length_of_decode h
  by_cases ht : tagOf msg = opcWritecube
  · obtain rfl := Except.ok.inj ((decode_writecube msg hl ht).symm.trans h)
    rw [if_pos ht, exec_writecube, State.apply]
  · obtain ⟨j, hj, hexec⟩ := decode_unrecognised msg hl ht
    obtain rfl := Except.ok.inj (hj.symm.trans h)
    rw [if_neg ht, hexec]

/-- DECODE carries out the instruction of the message that the receive has put into `rxbuf` (R130). -/
theorem commandDecoder_of_decode (h : decode msg = .ok i) (s : State) :
    commandDecoder (s.fillRxbuf msg) = exec i (s.fillRxbuf msg) := by
  rw [commandDecoder, State.fillRxbuf_rxbuf, Memory.bytes_ofBytes msg (length_of_decode h), h]

end

/-- Settles O6: the message is that of a decoded instruction, whose tag is its first byte. -/
theorem tagChoosesTheCommand : Obligations.TagChoosesTheCommand := by
  intro msg hl
  obtain ⟨i, hdecode, hwf, rfl⟩ := encodeOfDecodeIsIdentity msg hl
  obtain ⟨-, htag⟩ := encode_length_tag i hwf
  exact ⟨i, hdecode, htag.symm, exec_of_decode hdecode⟩

end Sys2Proof

namespace Sys2Proof.Machine

/-! ### The POLL that enters the decoder, and the POLL that does not (R134, R154) -/

/-- Settles O13: the receive of the message succeeds, and the decoder runs what it decodes to. -/
theorem stepRunsDecodedInstruction : Obligations.StepRunsDecodedInstruction := by
  intro s msg i hp hinput hdecode
  have hevent : s.nextEvent = .writeAddressed (.ok msg) := by
    rw [State.nextEvent, hinput, eventOf, receiveWrite_full (length_of_decode hdecode)]
  rw [step_poll hp, pollStep, hevent, service, evWriteAddressed, commandDecoder_of_decode hdecode]
  rfl

/-- Settles O17: RXFAIL raises its diagnostic, and the residue of the receive is what `rxbuf` holds. -/
theorem failedReceiveOnlyDiagnosed : Obligations.FailedReceiveOnlyDiagnosed := by
  intro s hp hevent
  refine ⟨Memory.ofBytes (rxResidue s.consumeInput.polls), ?_⟩
  rw [step_poll hp, pollStep, hevent, service, evWriteAddressed, rxFail, andThen]
  rfl

/-! ### A host's message (R135, R182) -/

/-- The frame bytes of the message for any data are its first 20 bytes, with zeros for those that are missing. -/
theorem payloadOf_writeBuffer_padded (d : List Byte) :
    payloadOf (HostSide.writeBuffer d) = d.take 20 ++ List.replicate (20 - d.length) 0x00#8 := by
  have hzeros : min (20 - min 32 d.length) (32 - d.length) = 20 - d.length := by omega
  calc payloadOf (HostSide.writeBuffer d)
      = (d.take 32 ++ List.replicate (32 - d.length) 0x00#8).take 20 := rfl
    _ = d.take 20 ++ List.replicate (20 - d.length) 0x00#8 := by
        rw [List.take_append, List.take_take, List.length_take, List.take_replicate, hzeros]
        rfl

/-- Settles O47: up to 20 bytes none is cut off, from 20 on none is missing, and past 32 there is no transaction. -/
theorem hostPayloadsByLength : Obligations.HostPayloadsByLength := by
  refine fun d => ⟨fun hshort => ?_, fun hlong _ => ?_, fun hover _ => if_pos hover⟩
  · rw [frameWritten_writeBuffer, payloadOf_writeBuffer_padded, List.take_of_length_le hshort]
  · rw [frameWritten_writeBuffer, payloadOf_writeBuffer_padded, Nat.sub_eq_zero_of_le hlong, List.replicate_zero,
      List.append_nil]

end Sys2Proof.Machine

/-! ## The refresh cycle (42_refresh_cycle.md)

The five steps one by one first, then the iteration they make up. Written as one transition it is ITERATE of R159
(`run_iteration_eq_iterate`). For the cycles, what an iteration does to the display side is said with the frame that the
next swap point leaves in `active` (`State.upcoming`): every iteration updates it by the frame its event writes, and the
one that wraps the layer makes `active` equal to it (`State.Iterated`). Five iterations are a cycle
(`State.CycleFrom`), and the shown frames follow by induction on the cycles. -/

namespace Sys2Proof.Machine

/-! ### The steps (R150 to R157) -/

/-- Settles O23: EMIT gives `active[layer]` to the serializer. -/
theorem emitShowsTheActiveWord : Obligations.EmitShowsTheActiveWord := fun _ =>
  step_emit

/-- Settles O16: the service of Idle answers the state it is given. -/
theorem idlePollChangesNothing : Obligations.IdlePollChangesNothing := by
  intro s hp hevent
  rw [step_poll hp, pollStep, hevent]
  rfl

/-- Settles O22: the service of a read transmits the first 32 bytes of `rxbuf` and raises its diagnostic. -/
theorem readRequestAnsweredFromBuffer : Obligations.ReadRequestAnsweredFromBuffer := by
  intro s r hp hevent
  rw [step_poll hp, pollStep, hevent]
  rfl

/-- Settles O24: the new contents are the cleared buffer. -/
theorem clearZeroesTheBuffer : Obligations.ClearZeroesTheBuffer := fun _ hp =>
  ⟨Memory.zeroed, Memory.read_zeroed, Memory.wf_zeroed, step_clear hp⟩

/-- Settles O25: the new layer is `nextLayer` of the old one. -/
theorem advanceCountsModuloFive : Obligations.AdvanceCountsModuloFive := fun s hp =>
  ⟨nextLayer s.layer, rfl, step_advance hp⟩

/-- Settles O29: each of the five steps names the phase after it. -/
theorem phasesFollowInOrder : Obligations.PhasesFollowInOrder := by
  intro s
  cases hp : s.phase with
  | emit => exact ⟨_, step_emit hp, rfl⟩
  | poll =>
    obtain ⟨u, hu, -, -, hphase, -⟩ := pollStep_next s
    exact ⟨u, (step_poll hp).trans hu, hphase⟩
  | clear => exact ⟨_, step_clear hp, rfl⟩
  | advance => exact ⟨_, step_advance hp, rfl⟩
  | swapchk => exact ⟨_, step_swapchk hp, rfl⟩

/-- Settles O28: a run that appends answers, and every run appends. -/
theorem everyRunGoesOn : Obligations.EveryRunGoesOn := by
  intro n s
  obtain ⟨t, a, ht⟩ := run_appends n s
  exact ⟨_, ht s.outputs⟩

/-! ### A word of the opcode table (R152, R154) -/

theorem decode_of_decodeTableWord {nbits w : Nat} {i : Instr} (h : decodeTableWord nbits w = some i) :
    decode (messageOfTableWord nbits w) = .ok i := by
  unfold decodeTableWord at h
  split at h
  next j hj => rw [hj, Option.some.inj h]
  next => cases h

/-- Settles O14: the word's message is the next input of a POLL, which runs what it decodes to. -/
theorem placedTableWordIsRun : Obligations.PlacedTableWordIsRun := fun s nbits w i h =>
  stepRunsDecodedInstruction (s.withFetchWord nbits w) (messageOfTableWord nbits w) i rfl rfl
    (decode_of_decodeTableWord h)

/-! ### ITERATE (R159) -/

/-- After CLEAR nothing tells the service of an event from step 2 of R159, if the buffer was clear before. -/
theorem clearStep_service {x : Transaction} {s u : State} (hzero : s.rxbuf = Memory.zeroed)
    (h : service (eventOf x) s = .next u) : clearStep u = clearStep (iterateEvent (eventOf x) s) := by
  rcases service_cases x s with ⟨he, hu⟩ | ⟨he, hu⟩ | ⟨b, he, -, ht, hu⟩ | ⟨b, he, -, ht, hu⟩ | ⟨r, he, hu⟩ <;>
    obtain rfl := Host.Outcome.next.inj (hu.symm.trans h) <;> rw [he]
  · rfl
  · rfl
  · rw [iterateEvent, if_pos (show byteAt b 0 = 0x01#8 from ht)]; rfl
  · rw [iterateEvent, if_neg (show ¬byteAt b 0 = 0x01#8 from ht)]; rfl
  · rw [hzero, Memory.slice_zeroed]; rfl

/-- Step 2 of R159 neither reads nor changes the phase. -/
theorem iterateEvent_goto (e : Event) (p : Phase) (s : State) :
    iterateEvent e (s.goto p) = (iterateEvent e s).goto p := by
  rcases e with _ | (b | _) | r
  case writeAddressed.ok =>
    simp only [iterateEvent]
    split <;> rfl
  all_goals rfl

/-- Steps 4 and 5 of R159 where an exchange is due after the layer has advanced. -/
theorem iterateAdvance_due {s : State} (hl : nextLayer s.layer = 0) (hf : s.swapRequested = true) :
    iterateAdvance s = { s with layer := nextLayer s.layer, active := s.staging, staging := s.active,
                                swapRequested := false } := if_pos ⟨hl, hf⟩

theorem iterateAdvance_not_due {s : State} (h : nextLayer s.layer = 0 → s.swapRequested = false) :
    iterateAdvance s = { s with layer := nextLayer s.layer } := if_neg (by simpa using h)

/-- ADVANCE and SWAPCHK are steps 4 and 5 of R159, and lead to EMIT. -/
theorem swapchkStep_advanceStep (s : State) : swapchkStep (advanceStep s) = iterateAdvance (s.goto .emit) := by
  by_cases hdue : nextLayer s.layer = 0 ∧ s.swapRequested = true
  · obtain ⟨hl, hf⟩ := hdue
    rw [swapchkStep_due (s := advanceStep s) hl hf, iterateAdvance_due (s := s.goto .emit) hl hf]
    rfl
  · have hnot : nextLayer s.layer = 0 → s.swapRequested = false := by simpa using hdue
    rw [swapchkStep_not_due (s := advanceStep s) hnot, iterateAdvance_not_due (s := s.goto .emit) hnot]
    rfl

/-- The state at EMIT with its word emitted and its input consumed: what both the five steps and ITERATE put before the
event, but for the phase (R151, R152). -/
def State.polled (s : State) : State := s.consumeInput.serialEmit (frameWord s.active s.layer)

/-- Settles O36: POLL's service acts on the cleared buffer as step 2 of R159 does, and the steps after CLEAR are steps 4
and 5; the phase takes no part in either. -/
theorem fiveStepsAreOneIteration : Obligations.FiveStepsAreOneIteration := by
  intro s hp hzero
  obtain ⟨u, hu, -⟩ := service_next (s.input 0) (s.polled.goto .poll)
  have hphase : s.polled.goto .emit = s.polled := by rw [← hp]; rfl
  rw [run_iteration hp (pollStep_of_service (s := emitStep s) hu)]
  congr 1
  calc swapchkStep (advanceStep (clearStep u))
      = swapchkStep (advanceStep (clearStep (iterateEvent s.nextEvent (s.polled.goto .poll)))) := by
        rw [clearStep_service (s := s.polled.goto .poll) hzero hu]; rfl
    _ = iterateAdvance ((clearStep (iterateEvent s.nextEvent (s.polled.goto .poll))).goto .emit) :=
        swapchkStep_advanceStep _
    _ = iterateAdvance { iterateEvent s.nextEvent (s.polled.goto .emit) with rxbuf := Memory.zeroed } := by
        rw [iterateEvent_goto, iterateEvent_goto]; rfl
    _ = iterate s.nextEvent s.consumeInput := by rw [hphase]; rfl

/-! ### The frame of the next swap point (R113, R114) -/

/-- The frame that `active` will hold after the next swap point if nothing more is written. -/
def State.upcoming (s : State) : Frame := if s.swapRequested then s.staging else s.active

theorem State.upcoming_of_set {s : State} (h : s.swapRequested = true) : s.upcoming = s.staging := if_pos h

theorem State.upcoming_of_clear {s : State} (h : s.swapRequested = false) : s.upcoming = s.active := by
  rw [State.upcoming, h]; rfl

/-- The service of an event makes the frame that it writes, if any, the upcoming one (R114, R131). -/
theorem service_upcoming {x : Transaction} {s u : State} (h : service (eventOf x) s = .next u) :
    u.upcoming = (frameWritten x).getD s.upcoming := by
  rcases service_cases x s with ⟨he, hu⟩ | ⟨he, hu⟩ | ⟨b, he, -, ht, hu⟩ | ⟨b, he, -, ht, hu⟩ | ⟨r, he, hu⟩ <;>
    obtain rfl := Host.Outcome.next.inj (hu.symm.trans h) <;> simp only [frameWritten, he]
  · rfl
  · rfl
  · rw [if_pos ht]; rfl
  · rw [if_neg ht]; rfl
  · rfl

/-- SWAPCHK at layer 0 makes the upcoming frame the active one (R111). -/
theorem swapchkStep_active {s : State} (hl : s.layer = 0) : (swapchkStep s).active = s.upcoming := by
  cases hf : s.swapRequested with
  | true => rw [swapchkStep_due hl hf, State.upcoming_of_set hf]; rfl
  | false => rw [swapchkStep_not_due fun _ => hf, State.upcoming_of_clear hf]; rfl

/-- SWAPCHK does not change which frame is upcoming: it exchanges that one, or does nothing. -/
theorem swapchkStep_upcoming (s : State) : (swapchkStep s).upcoming = s.upcoming := by
  by_cases hl : s.layer = 0
  · rw [State.upcoming_of_clear (swapchkStep_swapped s hl), swapchkStep_active hl]
  · rw [swapchkStep_not_due fun h => absurd h hl]; rfl

/-! ### An iteration (R159) -/

/-- The state `t` is `s` one iteration later, as far as the display side and the bus input go. -/
structure State.Iterated (s t : State) : Prop where
  phase : t.phase = .emit
  layer : t.layer = nextLayer s.layer
  emitted : t.emitTrace = s.emitTrace ++ [frameWord s.active s.layer]
  input : ∀ k, t.input k = s.input (k + 1)
  upcoming : t.upcoming = (frameWritten (s.input 0)).getD s.upcoming
  kept : t.layer ≠ 0 → t.active = s.active
  swapped : t.layer = 0 → t.active = t.upcoming ∧ t.swapRequested = false

/-- The state before the SWAPCHK of an iteration says what the iteration does. -/
theorem State.Iterated.of_swapchkStep {s v : State} (hlayer : v.layer = nextLayer s.layer)
    (hemitted : v.emitTrace = s.emitTrace ++ [frameWord s.active s.layer]) (hinput : ∀ k, v.input k = s.input (k + 1))
    (hupcoming : v.upcoming = (frameWritten (s.input 0)).getD s.upcoming) (hactive : v.active = s.active) :
    s.Iterated (swapchkStep v) := by
  have hl : (swapchkStep v).layer = v.layer := State.maybeSwap_layer v.layer v
  constructor
  case phase => rfl
  case layer => exact hl.trans hlayer
  case emitted => exact (State.maybeSwap_emitTrace v.layer v).trans hemitted
  case input =>
    intro k
    rw [← hinput, State.input_congr (t := swapchkStep v) (State.maybeSwap_pending v.layer v)
      (State.maybeSwap_polls v.layer v)]
  case upcoming => exact (swapchkStep_upcoming v).trans hupcoming
  case kept =>
    intro hne
    rw [swapchkStep_not_due fun h => absurd (hl.trans h) hne]
    exact hactive
  case swapped =>
    intro h0
    have hv : v.layer = 0 := hl.symm.trans h0
    exact ⟨(swapchkStep_active hv).trans (swapchkStep_upcoming v).symm, swapchkStep_swapped v hv⟩

/-- The five steps from EMIT are an iteration, whatever the bus does. -/
theorem run_iterated {s : State} (hp : s.phase = .emit) : ∃ t, runSteps 5 s = .next t ∧ s.Iterated t := by
  obtain ⟨u, hu, hactive, hlayer, -, -, hemitted, hpending, hpolls⟩ :=
    service_next (s.input 0) (emitStep s).consumeInput
  have hupcoming := service_upcoming hu
  refine ⟨_, run_iteration hp (pollStep_of_service (s := emitStep s) hu), .of_swapchkStep ?_ hemitted (fun k => ?_)
    hupcoming hactive⟩
  · exact congrArg nextLayer hlayer
  · exact (congrFun (State.input_congr (s := s.consumeInput) hpending hpolls) k).trans (s.consumeInput_input k)

/-! ### A cycle (R160) -/

theorem State.inputs_add (s : State) (m n : Nat) :
    s.inputs (m + n) = s.inputs m ++ (List.range n).map fun k => s.input (m + k) := by
  simp [State.inputs, List.range_add]

theorem lastFrame_append (f : Frame) (ts us : List Transaction) :
    lastFrame f (ts ++ us) = lastFrame (lastFrame f ts) us := List.foldl_append

theorem take_succ_words (f : Frame) (k : Fin 5) :
    f.words.take (k.val + 1) = f.words.take k.val ++ [frameWord f k] := by
  fin_cases k <;> rfl

/-- The state `t` is `k` iterations, at most five, into the cycle that starts at `s`: the words of `s.active` have been
emitted up to layer `k`, and `active` is what it was till the fifth iteration makes it the frame written last. -/
structure State.CycleFrom (s : State) (k : Nat) (t : State) : Prop where
  phase : t.phase = .emit
  layer : t.layer.val = k % 5
  emitted : t.emitTrace = s.emitTrace ++ s.active.words.take k
  input : ∀ j, t.input j = s.input (k + j)
  upcoming : t.upcoming = lastFrame s.upcoming (s.inputs k)
  kept : k < 5 → t.active = s.active
  swapped : k = 5 → t.active = t.upcoming ∧ t.swapRequested = false

namespace State.CycleFrom
variable {s t u : State} {k : Nat}

theorem start (h : s.atCycleStart) : s.CycleFrom 0 s where
  phase := h.1
  layer := congrArg Fin.val h.2
  emitted := (List.append_nil _).symm
  input j := congrArg s.input (Nat.zero_add j).symm
  upcoming := rfl
  kept _ := rfl
  swapped h := nomatch h

/-- One more iteration of the cycle. -/
theorem next (h : s.CycleFrom k t) (hk : k < 5) (hit : t.Iterated u) : s.CycleFrom (k + 1) u := by
  have htl : t.layer = ⟨k, hk⟩ := Fin.ext (h.layer.trans (Nat.mod_eq_of_lt hk))
  have hul : u.layer.val = (k + 1) % 5 := by rw [hit.layer, htl]; rfl
  constructor
  case phase => exact hit.phase
  case layer => exact hul
  case emitted =>
    rw [hit.emitted, h.emitted, h.kept hk, htl, List.append_assoc]
    exact congrArg (s.emitTrace ++ ·) (take_succ_words s.active ⟨k, hk⟩).symm
  case input =>
    intro j
    rw [hit.input, h.input, Nat.add_assoc, Nat.add_comm 1 j]
  case upcoming =>
    rw [hit.upcoming, h.upcoming, h.input, State.inputs_add, lastFrame_append]
    rfl
  case kept =>
    intro hk'
    have hne : u.layer ≠ 0 := Fin.ne_of_val_ne (by rw [hul, Nat.mod_eq_of_lt hk']; exact Nat.succ_ne_zero k)
    rw [hit.kept hne, h.kept hk]
  case swapped =>
    intro hk'
    exact hit.swapped (Fin.ext (by rw [hul, hk']; rfl))

/-- After five iterations the next cycle starts. -/
theorem atCycleStart (h : s.CycleFrom 5 t) : t.atCycleStart := ⟨h.phase, Fin.ext h.layer⟩

end State.CycleFrom

/-- The iterations of a cycle, by induction on their number. -/
theorem run_cycleFrom {s : State} (hs : s.atCycleStart) {k : Nat} (hk : k ≤ 5) :
    ∃ t, runSteps (5 * k) s = .next t ∧ s.CycleFrom k t := by
  induction k with
  | zero => exact ⟨s, rfl, .start hs⟩
  | succ k ih =>
    obtain ⟨t, ht, hcycle⟩ := ih (by omega)
    obtain ⟨u, hu, hit⟩ := run_iterated hcycle.phase
    exact ⟨u, (run_add (5 * k) 5 ht).trans hu, hcycle.next hk hit⟩

/-- Settles O38: after five iterations all five words have been emitted. -/
theorem noTornCycle : Obligations.NoTornCycle := by
  intro s hs
  obtain ⟨t, ht, hcycle⟩ := run_cycleFrom hs (Nat.le_refl 5)
  exact ⟨t, ht, hcycle.atCycleStart, hcycle.emitted⟩

/-! ### Any number of cycles (R162) -/

/-- The inputs of a cycle and of those after it. -/
theorem State.CycleFrom.inputs {s t : State} (h : s.CycleFrom 5 t) (n : Nat) :
    s.inputs (5 + n) = s.inputs 5 ++ t.inputs n := by
  rw [State.inputs_add]
  exact congrArg (s.inputs 5 ++ ·) (List.map_congr_left fun j _ => (h.input j).symm)

/-- Settles O39, by induction on the number of cycles: a cycle shows `active` and leaves there the frame written last. -/
theorem emitTraceDeterminedByWrites : Obligations.EmitTraceDeterminedByWrites := by
  intro n
  induction n with
  | zero => exact fun s hs hf => ⟨s, rfl, hs, hf, rfl, (List.append_nil _).symm⟩
  | succ n ih =>
    intro s hs hf
    obtain ⟨t, ht, hcycle⟩ := run_cycleFrom hs (Nat.le_refl 5)
    obtain ⟨hactive, hflag⟩ := hcycle.swapped rfl
    have hshown : t.active = lastFrame s.active (s.inputs 5) := by
      rw [hactive, hcycle.upcoming, State.upcoming_of_clear hf]
    have hfive : (s.inputs 5).length = 5 := by simp [State.inputs]
    have hinputs : s.inputs (5 * (n + 1)) = s.inputs 5 ++ t.inputs (5 * n) := by
      rw [Nat.mul_succ, Nat.add_comm, hcycle.inputs]
    obtain ⟨u, hu, hstart, hclear, hlast, hemitted⟩ := ih t hcycle.atCycleStart hflag
    refine ⟨u, ?_, hstart, hclear, ?_, ?_⟩
    · rw [Nat.mul_succ, Nat.add_comm]
      exact (run_add 25 (25 * n) ht).trans hu
    · rw [hlast, hshown, hinputs, lastFrame_append]
    · rw [hemitted, hcycle.emitted, hinputs, shownFrames, List.take_left' hfive, List.drop_left' hfive, ← hshown,
        List.flatMap_cons, List.append_assoc]
      rfl

/-! ### The serializer (R163) -/

section
variable (c : SerialChain) (bits : List Bool)

theorem SerialChain.shiftIn_concat (b : Bool) : c.shiftIn (bits ++ [b]) = (c.shiftIn bits).clock b :=
  List.foldl_concat _ _ _ _

/-- Shift clocks leave the latched outputs alone. -/
theorem SerialChain.shiftIn_outputs : (c.shiftIn bits).outputs = c.outputs := by
  induction bits using List.reverseRecOn with
  | nil => rfl
  | append_singleton bits b ih => rw [SerialChain.shiftIn_concat]; exact ih

/-- The bits shifted in stand in the stages, the last one in stage 0. -/
theorem SerialChain.shiftIn_getLsbD {i : Nat} (hi : i < 32) (hlen : i < bits.length) :
    (c.shiftIn bits).stages.getLsbD i = bits.reverse[i]'(by simpa using hlen) := by
  induction bits using List.reverseRecOn generalizing i with
  | nil => cases hlen
  | append_singleton bits b ih =>
    rw [SerialChain.shiftIn_concat, SerialChain.clock, BitVec.getLsbD_shiftConcat]
    cases i with
    | zero => simp
    | succ i => simpa [hi] using ih (by omega) (by simpa using hlen)

end

theorem length_serialBits (order : SerBitOrder) (w : Word) : (serialBits order w).length = 32 := by
  cases order <;> rfl

/-- After one call of the primitive, output `i` is the `i`-th last of the serialized bits. -/
theorem SerialChain.emit_getLsbD (c : SerialChain) (order : SerBitOrder) (w : Word) {i : Nat} (hi : i < 32) :
    (SerialChain.emit order w c).outputs.getLsbD i =
      (serialBits order w)[31 - i]'(by rw [length_serialBits]; omega) := by
  have hlen := length_serialBits order w
  have hbit := c.shiftIn_getLsbD (serialBits order w) hi (hlen ▸ hi)
  simp only [List.getElem_reverse, hlen] at hbit
  exact hbit

/-- Bit 31 first: the outputs are the word. -/
theorem SerialChain.emit_msbFirst (c : SerialChain) (w : Word) : (SerialChain.emit .msbFirst w c).outputs = w := by
  apply BitVec.eq_of_getLsbD_eq
  intro i hi
  have hback : 31 - (31 - i) = i := by omega
  simp only [c.emit_getLsbD .msbFirst w hi, serialBits, List.getElem_map, List.getElem_range, hback]

/-- Bit 0 first: the outputs are the word the other way round. -/
theorem SerialChain.emit_lsbFirst (c : SerialChain) (w : Word) {i : Nat} (hi : i < 32) :
    (SerialChain.emit .lsbFirst w c).outputs.getLsbD i = w.getLsbD (31 - i) := by
  simp only [c.emit_getLsbD .lsbFirst w hi, serialBits, List.getElem_map, List.getElem_range]

/-- Settles O45: the first of the 32 bits has reached the last stage when the latch takes them. -/
theorem serializerLatchesTheWholeWord : Obligations.SerializerLatchesTheWholeWord := fun w c =>
  ⟨c.emit_msbFirst w, fun _ hi => c.emit_lsbFirst w hi, c.shiftIn_outputs⟩

end Sys2Proof.Machine

/-! ## The host side (43_host_environment.md)

`Laws/HostSide.lean` says what each call can be (`call_cases`, `writeIn_cases`, `readIn_cases`). The first three parts
read the transport calls, the session, and the outcomes of a device-file write and read off those cases. The last part
is about every call at once: the four shapes of what it puts on the bus (`call_bus`), and that it never reports
`UnknownOpcode` (`call_result_ne_unknownOpcode`), so that the errors of a call are the other four. -/

namespace Sys2Proof.Machine.HostSide

/-! ### The transport calls (R182, R183) -/

/-- Settles O49: the cases of `writePage` are by the size of the data, those of `readPage` by the two counts. -/
theorem hostCallResults : Obligations.HostCallResults := by
  refine ⟨fun buf d k hover => ?_, fun buf d k hfits => ?_, fun buf m k rx => ?_⟩
  · rcases writePage_cases buf d k with ⟨-, e⟩ | ⟨hfits, -⟩
    · simp [e]
    · exact absurd hover (Nat.not_lt.2 hfits)
  · rcases writePage_cases buf d k with ⟨hover, -⟩ | ⟨-, e⟩
    · exact absurd hover (Nat.not_lt.2 hfits)
    · rw [e, writeBuffer_of_fits hfits]
      exact ⟨rfl, rfl⟩
  · rcases readPage_cases buf m k rx with ⟨hk, hrx, e⟩ | ⟨hfail, e⟩
    · rw [e]
      exact ⟨rfl, iff_of_true rfl hk, (if_pos ⟨hk, hrx⟩).symm⟩
    · rw [e]
      exact ⟨rfl, decide_eq_true_iff, (if_neg hfail).symm⟩

/-! ### The session (R181, R184, R185) -/

/-- Settles O50: each move of the guard is one equation of the model. -/
theorem sessionGuardExcludes : Obligations.SessionGuardExcludes :=
  ⟨rfl, rfl, rfl, rfl⟩

@[simp] theorem Session.guard_free : Session.free.guard = .free := rfl

@[simp] theorem Session.guard_held (b : TransferBuffer) : (Session.held b).guard = .held := rfl

/-- What is no move of the host: any call but `open` without a session (R185; log 20). -/
theorem call_eq_none_iff (d : Driver) (c : FileCall) : d.call c = none ↔ d.session.guard = .free ∧ c ≠ .openFile := by
  obtain ⟨s, k⟩ := d
  cases c with
  | openFile => simp [Driver.call]
  | closeFile => cases s <;> simp [Driver.call, Driver.closeFile, SessionGuard.release]
  | writeFile user copied accepted => cases s <;> simp [Driver.call]
  | readFile n accepted received copied => cases s <;> simp [Driver.call]

section
variable {d : Driver} {b : TransferBuffer} (hs : d.session = .held b)
include hs

theorem call_writeFile (user : List Byte) (copied accepted : Nat) :
    d.call (.writeFile user copied accepted) = some (d.writeIn b user copied accepted) := by
  simp [Driver.call, hs]

theorem call_readFile (n accepted : Nat) (received : List Byte) (copied : Nat) :
    d.call (.readFile n accepted received copied) = some (d.readIn b n accepted received copied) := by
  simp [Driver.call, hs]

/-- A write keeps the session, whatever it answers. -/
theorem writeIn_keeps_session (user : List Byte) (copied accepted : Nat) :
    (d.writeIn b user copied accepted).driver.session.guard = .held ∧
      (d.writeIn b user copied accepted).driver.opened = d.opened := by
  rcases writeIn_cases hs user copied accepted with ⟨-, e⟩ | ⟨-, -, e⟩ | ⟨-, -, e⟩ <;> simp [e, Reply.silent, hs]

/-- A read keeps the session, whatever it answers. -/
theorem readIn_keeps_session (n accepted : Nat) (received : List Byte) (copied : Nat) :
    (d.readIn b n accepted received copied).driver.session.guard = .held ∧
      (d.readIn b n accepted received copied).driver.opened = d.opened := by
  rcases @readIn_cases d b n accepted received copied with ⟨-, e⟩ | ⟨-, _, _, e, -⟩ <;>
    simp [e, Reply.silent, hs]

end

/-- Settles O51: one case for each thing that a call can be. -/
theorem fileCallsFollowTheSession : Obligations.FileCallsFollowTheSession := by
  refine ⟨call_eq_none_iff, fun d c r h => ?_⟩
  rcases call_cases h with ⟨rfl, hs, rfl⟩ | ⟨rfl, ⟨b, hs⟩, rfl⟩ | ⟨rfl, -, rfl⟩ |
    ⟨b, user, copied, accepted, rfl, hs, rfl⟩ | ⟨b, n, accepted, received, copied, rfl, hs, rfl⟩
  · have hnot : d.session.guard ≠ .held := by simp [hs]
    exact ⟨fun _ => ⟨rfl, rfl, fun _ => ⟨rfl, rfl⟩, fun hheld => absurd hheld hnot⟩, nofun, fun h => absurd rfl h⟩
  · have hguard : d.session.guard = .held := by simp [hs]
    have hnot : d.session.guard ≠ .free := by simp [hs]
    exact ⟨fun _ => ⟨rfl, hguard, fun hfree => absurd hfree hnot, fun _ => ⟨rfl, rfl⟩⟩, nofun, fun h => absurd rfl h⟩
  · exact ⟨nofun, fun _ => ⟨rfl, rfl, rfl⟩, fun _ h => absurd rfl h⟩
  · exact ⟨nofun, nofun, fun _ _ => writeIn_keeps_session hs user copied accepted⟩
  · exact ⟨nofun, nofun, fun _ _ => readIn_keeps_session hs n accepted received copied⟩

/-! ### A write and a read within a session (R184, R186) -/

/-- Settles O52: the three cases of the write exclude each other. -/
theorem deviceWriteOutcomes : Obligations.DeviceWriteOutcomes := by
  intro d b user copied accepted hs
  refine ⟨_, call_writeFile hs user copied accepted, ?_⟩
  rcases writeIn_cases hs user copied accepted with ⟨hover, e⟩ | ⟨hfits, hshort, e⟩ | ⟨hfits, hall, e⟩ <;> rw [e]
  · have hnot : ¬ user.length ≤ 32 := Nat.not_le.2 hover
    exact ⟨rfl, fun _ => ⟨rfl, rfl, rfl⟩, fun h => absurd h hnot, fun h => absurd h hnot⟩
  · exact ⟨rfl, fun h => absurd hfits (Nat.not_le.2 h), fun _ _ => ⟨rfl, rfl, rfl⟩,
      fun _ h => absurd hshort (Nat.not_lt.2 h)⟩
  · exact ⟨rfl, fun h => absurd hfits (Nat.not_le.2 h), fun _ h => absurd hall (Nat.not_le.2 h),
      fun _ _ => ⟨⟨.filled user, rfl, writeBuffer_of_fits hfits, rfl⟩, rfl⟩⟩

/-- Settles O53: past the size check the outcomes are by the transport and then by the marshalling. -/
theorem deviceReadOutcomes : Obligations.DeviceReadOutcomes := by
  intro d b n accepted received copied hs
  refine ⟨_, call_readFile hs n accepted received copied, ?_⟩
  rcases @readIn_cases d b n accepted received copied with ⟨hover, e⟩ | ⟨hfits, output, result, e, hout⟩ <;>
    rw [e]
  · exact ⟨fun _ => ⟨rfl, rfl, rfl, rfl⟩, fun h => absurd hover (Nat.not_lt.2 h)⟩
  · refine ⟨fun h => absurd hfits (Nat.not_le.2 h), fun _ => ⟨⟨b.addressed, rfl, rfl⟩, rfl, ?_⟩⟩
    rcases hout with ⟨hfail, rfl, rfl⟩ | ⟨h2, h32, hshort, rfl, rfl⟩ | ⟨h2, h32, hall, rfl, rfl⟩
    · exact ⟨fun _ => ⟨rfl, rfl⟩, fun h2 h32 => absurd ⟨h2, h32⟩ hfail, fun h2 h32 => absurd ⟨h2, h32⟩ hfail⟩
    · exact ⟨fun h => absurd ⟨h2, h32⟩ h, fun _ _ _ => ⟨List.take_take, rfl⟩,
        fun _ _ h => absurd hshort (Nat.not_lt.2 h)⟩
    · have hlen : (received.take n).length = n := by rw [List.length_take, h32]; exact Nat.min_eq_left hfits
      exact ⟨fun h => absurd ⟨h2, h32⟩ h, fun _ _ h => absurd hall (Nat.not_le.2 h), fun _ _ _ => ⟨rfl, hlen, rfl⟩⟩

/-! ### Every call: what it puts on the bus, and its errors (R186, R188, R201) -/

/-- The bus operations of a call, in order: none, the message of a write, or the address write of a read, with
or without the read after it. -/
theorem call_bus {d : Driver} {c : FileCall} {r : Reply} (h : d.call c = some r) :
    r.bus = [] ∨
    (∃ user copied accepted, c = .writeFile user copied accepted ∧ user.length ≤ pageSize ∧
      r.bus = [.write ⟨Config.slaveAddr, writeBuffer user⟩]) ∨
    r.bus = [.write ⟨Config.slaveAddr, readAddressBytes⟩] ∨
    r.bus = [.write ⟨Config.slaveAddr, readAddressBytes⟩, .read Config.slaveAddr txLen] := by
  rcases call_cases h with ⟨-, -, rfl⟩ | ⟨-, -, rfl⟩ | ⟨-, -, rfl⟩ |
    ⟨b, user, copied, accepted, rfl, hs, rfl⟩ | ⟨b, n, accepted, received, copied, -, -, rfl⟩
  · exact .inl rfl
  · exact .inl rfl
  · exact .inl rfl
  · rcases writeIn_cases hs user copied accepted with ⟨-, e⟩ | ⟨-, -, e⟩ | ⟨hfits, -, e⟩ <;> rw [e]
    · exact .inl rfl
    · exact .inl rfl
    · exact .inr (.inl ⟨user, copied, accepted, rfl, hfits, rfl⟩)
  · rcases @readIn_cases d b n accepted received copied with ⟨-, e⟩ | ⟨-, output, result, e, -⟩ <;> rw [e]
    · exact .inl rfl
    · by_cases h2 : accepted = 2 <;> simp [h2]

/-- `UnknownOpcode` is the block's alone (R201). -/
theorem call_result_ne_unknownOpcode {d : Driver} {c : FileCall} {r : Reply} (h : d.call c = some r) :
    r.result ≠ .error .unknownOpcode := by
  rcases call_cases h with ⟨-, -, rfl⟩ | ⟨-, -, rfl⟩ | ⟨-, -, rfl⟩ |
    ⟨b, user, copied, accepted, -, hs, rfl⟩ | ⟨b, n, accepted, received, copied, -, -, rfl⟩
  · nofun
  · nofun
  · nofun
  · rcases writeIn_cases hs user copied accepted with ⟨-, e⟩ | ⟨-, -, e⟩ | ⟨-, -, e⟩ <;> rw [e]
    · nofun
    · nofun
    · by_cases ha : accepted = hostBuf <;> simp [ha]
  · rcases @readIn_cases d b n accepted received copied with ⟨-, e⟩ | ⟨-, output, result, e, hout⟩ <;> rw [e]
    · nofun
    · rcases hout with ⟨-, -, rfl⟩ | ⟨-, -, -, -, rfl⟩ | ⟨-, -, -, -, rfl⟩ <;> nofun

/-- Of the results that a call can have, exactly the errors are returned as a negative size (R186). -/
theorem returnValue_neg_iff {x : Except HostError Nat} (h : x ≠ .error .unknownOpcode) :
    returnValue x < 0 ↔ x = .error .sizeExceeded ∨ x = .error .busTransferFailed ∨ x = .error .sessionBusy ∨
      x = .error .userCopyFailed := by
  cases x with
  | ok n => simp
  | error e =>
    refine iff_of_true (returnValue_error e) ?_
    cases e <;> simp at h ⊢

/-- The size returned tells the number of bytes (R186). -/
theorem eq_ok_iff_returnValue_eq (x : Except HostError Nat) (n : Nat) : x = .ok n ↔ returnValue x = n := by
  cases x with
  | ok m => simp
  | error e =>
    have hneg := returnValue_error e
    exact iff_of_false nofun (by omega)

/-- Settles O54: a call reports one of the other four errors, and what it puts on the bus has one of four shapes. -/
theorem hostErrorsAreNegativeSizes : Obligations.HostErrorsAreNegativeSizes := by
  intro d c r h
  refine ⟨returnValue_neg_iff (call_result_ne_unknownOpcode h), eq_ok_iff_returnValue_eq r.result, ?_⟩
  rcases call_bus h with hnone | ⟨_, _, _, -, -, hwrite⟩ | haddr | hread
  · exact .inl hnone
  · exact .inr (.inl ⟨_, hwrite⟩)
  · exact .inr (.inl ⟨_, haddr⟩)
  · exact .inr (.inr ⟨_, _, _, hread⟩)

/-- Settles O55: an operation of each of the four shapes is of one of the three kinds. -/
theorem hostBusTrafficHasThreeKinds : Obligations.HostBusTrafficHasThreeKinds := by
  intro d c r a h ha
  rcases call_bus h with hnone | ⟨user, copied, accepted, hc, hfits, hwrite⟩ | haddr | hread
  · simp [hnone] at ha
  · rw [hwrite, List.mem_singleton, writeBuffer_of_fits hfits] at ha
    exact .inl ⟨user, copied, accepted, hc, hfits, ha⟩
  · rw [haddr, List.mem_singleton] at ha
    exact .inr (.inl ha)
  · rw [hread, List.mem_pair] at ha
    exact .inr ha

end Sys2Proof.Machine.HostSide

/-! ## Diagnostics (60_exceptions.md)

Of the five steps of an iteration POLL alone raises diagnostics, in the service of its one event. The service has one
form for each outcome of the checks of R206, and no form raises more than one diagnostic (`service_diagTrace`); the three
steps after it keep the trace (`swapchkStep_advanceStep_clearStep_diagTrace`). -/

namespace Sys2Proof.Machine

/-- The service of an event raises at most one diagnostic: none for Idle and for a WRITECUBE message, one otherwise
(R201, R206). -/
theorem service_diagTrace {x : Transaction} {s u : State} (h : service (eventOf x) s = .next u) :
    u.diagTrace = s.diagTrace ∨ ∃ d, u.diagTrace = s.diagTrace ++ [d] := by
  rcases service_cases x s with ⟨-, hu⟩ | ⟨-, hu⟩ | ⟨b, -, -, -, hu⟩ | ⟨b, -, -, -, hu⟩ | ⟨r, -, hu⟩ <;>
    obtain rfl := Host.Outcome.next.inj (hu.symm.trans h)
  case inl => exact .inl rfl
  case inr.inr.inl => exact .inl rfl
  all_goals exact .inr ⟨_, rfl⟩

/-- CLEAR, ADVANCE and SWAPCHK raise no diagnostic (R156 to R158). -/
theorem swapchkStep_advanceStep_clearStep_diagTrace (s : State) :
    (swapchkStep (advanceStep (clearStep s))).diagTrace = s.diagTrace :=
  State.maybeSwap_diagTrace _ _

/-- Settles O37: what an iteration adds to the trace is what the service of its event adds. -/
theorem atMostOneDiagnosticPerIteration : Obligations.AtMostOneDiagnosticPerIteration := by
  intro s hp
  obtain ⟨u, hu, -⟩ := service_next (s.input 0) (emitStep s).consumeInput
  have hrun := run_iteration hp (pollStep_of_service (s := emitStep s) hu)
  have htrace := swapchkStep_advanceStep_clearStep_diagTrace (u.goto .clear)
  rcases service_diagTrace hu with hnone | ⟨d, hone⟩
  · exact ⟨_, [], hrun, rfl, by rw [htrace, List.append_nil]; exact hnone, Nat.zero_le 1⟩
  · exact ⟨_, [d], hrun, rfl, htrace.trans hone, Nat.le_refl 1⟩

end Sys2Proof.Machine

/-! ## The first cycle after reset (70_reset_and_hazards.md)

Reset stands at the start of a cycle, whatever the bus is about to deliver, and no cycle is torn (`noTornCycle`): the
first one shows the frame that reset put into `active`. -/

namespace Sys2Proof.Machine

/-- The five words of the default pattern, from layer 0 up (R33, D10). -/
theorem words_defaultPattern :
    defaultPattern.words = [0xF0000001#32, 0xE8000002#32, 0xD8000004#32, 0xB8000008#32, 0x78000010#32] := rfl

/-- Reset is at EMIT with layer 0, under any bus input (R33). -/
theorem atCycleStart_reset (bus : List Transaction) : { State.reset with pending := bus }.atCycleStart := ⟨rfl, rfl⟩

/-- Settles O43: the cycle that starts at reset adds the words of the default pattern to an empty trace. -/
theorem firstCycleShowsTheDefaultPattern : Obligations.FirstCycleShowsTheDefaultPattern := by
  intro bus
  obtain ⟨t, hrun, hstart, hemitted⟩ := noTornCycle _ (atCycleStart_reset bus)
  have hwords : t.emitTrace = defaultPattern.words := hemitted.trans (List.nil_append _)
  exact ⟨t, hrun, hstart, hwords.trans words_defaultPattern⟩

end Sys2Proof.Machine
